-- ==== Sys2Proof/Word.lean ====
section
/-! DEFINITION. The word types of the block: every field the spec treats as bits has one of these widths (rule R12).
Ticks, lengths and indexes are natural numbers: their width is a parameter of the run (rule R10). -/

namespace Sys2Proof

/-- A byte, 8 bits, unsigned (rule R12). -/
abbrev Byte := BitVec 8

/-- A 16-bit field of a PDU or of a command (rule R112, rule R170). -/
abbrev Word16 := BitVec 16

/-- A 32-bit operand: a baud rate, a number of microseconds or of milliseconds (rule R170). -/
abbrev Word32 := BitVec 32

end Sys2Proof
end

