-- ==== Sys2Proof/Syntax.lean ====
section
/-! DEFINITION. The instructions: one constructor for each row of spec/opcode_table.json, in the table's order.
The first 33 are the host commands (rule R170); the other 22 are the formats of the wire: the request PDUs (rule R148),
the reply PDUs (rules R149, R150, R469) and the two ADUs (rules R140, R143). -/

namespace Sys2Proof

/-- The two framers (rule R1); a block holds one of each (DESIGN CHOICE, safe: notes/assumptions/1.md). -/
inductive FramerKind where
  | rtu
  | ascii
  deriving DecidableEq, Repr

/-- Where a message is addressed. One byte sequence means different things to different units (rule R171: "Each framer
command goes to one framer instance (RTU or ASCII), and each master command to the one master engine"), so a message
carries its destination. `rtu`, `asc` and `mst` are the units of the host's commands (rule R185); the other four take the
wire formats of the opcode table (DESIGN CHOICE, notes/assumptions/2.md). -/
inductive Port where
  /-- A host command to the RTU framer. -/
  | rtu
  /-- A host command to the ASCII framer. -/
  | asc
  /-- A host command to the master engine. -/
  | mst
  /-- A request PDU for the master to send (rule R148). -/
  | request
  /-- A reply PDU that reaches the master through its framer (rule R149). -/
  | reply
  /-- An ADU on the serial line of the RTU framer (rule R140). -/
  | rtuLine
  /-- An ADU on the serial line of the ASCII framer (rule R143). -/
  | ascLine
  deriving DecidableEq, Repr

/-- The instructions. -/
inductive Instr where
  /-- RTU.RESET, rule R650. -/
  | rtuReset
  /-- ASCII.RESET, rule R651. -/
  | ascReset
  /-- RTU.SETUP, rule R205. -/
  | rtuSetup (baud ifdUs icdUs : Word32)
  /-- ASCII.SET_TIMEOUT, rule R302. -/
  | ascSetTimeout (ms : Word32)
  /-- RTU.SET_STATION_ADDRESS, rule R207. -/
  | rtuSetStationAddress (addr : Byte)
  /-- ASCII.SET_STATION_ADDRESS, rule R303. -/
  | ascSetStationAddress (addr : Byte)
  /-- RTU.POLL, rule R211. -/
  | rtuPoll
  /-- ASCII.POLL, rule R305. -/
  | ascPoll
  /-- RTU.BEGIN_SEND, rule R228. -/
  | rtuBeginSend
  /-- ASCII.BEGIN_SEND, rule R320. -/
  | ascBeginSend
  /-- RTU.SEND, rule R230. -/
  | rtuSend
  /-- ASCII.SEND, rule R321. -/
  | ascSend
  /-- RTU.FINISHED, rule R238. -/
  | rtuFinished
  /-- ASCII.FINISHED, rule R324. -/
  | ascFinished
  /-- BUF_READ to either framer, rule R106. -/
  | bufRead (unit : FramerKind) (i : Word16)
  /-- BUF_WRITE to either framer, rule R107. -/
  | bufWrite (unit : FramerKind) (i : Word16) (v : Byte)
  /-- SET_FRAME to either framer, rule R108. -/
  | setFrame (unit : FramerKind) (addr : Byte) (n : Word16)
  /-- READ_STATUS to either framer, rule R172. -/
  | readStatus (unit : FramerKind)
  /-- M_RESET, rule R652. -/
  | mReset
  /-- M_SET_RESPONSE_TIMEOUT, rule R420. -/
  | mSetResponseTimeout (ms : Word32)
  /-- M_SET_TURNAROUND, rule R421. -/
  | mSetTurnaround (ms : Word32)
  /-- M_POLL, rule R470. -/
  | mPoll
  /-- M_ACK_ERROR, rule R474. -/
  | mAckError
  /-- M_READ_STATUS, rule R184. -/
  | mReadStatus
  /-- READ_COILS, rule R430. -/
  | readCoils (slave : Byte) (addr count : Word16)
  /-- READ_DISCRETE_INPUTS, rule R431. -/
  | readDiscreteInputs (slave : Byte) (addr count : Word16)
  /-- READ_HOLDING_REGISTERS, rule R432. -/
  | readHoldingRegisters (slave : Byte) (addr count : Word16)
  /-- READ_INPUT_REGISTERS, rule R433. -/
  | readInputRegisters (slave : Byte) (addr count : Word16)
  /-- WRITE_SINGLE_COIL, rule R434. -/
  | writeSingleCoil (slave : Byte) (addr : Word16) (value : Byte)
  /-- WRITE_SINGLE_REGISTER, rule R435. -/
  | writeSingleRegister (slave : Byte) (addr value : Word16)
  /-- WRITE_MULTIPLE_COILS, rule R436. -/
  | writeMultipleCoils (slave : Byte) (addr count : Word16) (bits : List Byte)
  /-- WRITE_MULTIPLE_REGISTERS, rule R437. -/
  | writeMultipleRegisters (slave : Byte) (addr count : Word16) (values : List Word16)
  /-- READ_WRITE_MULTIPLE_REGISTERS, rule R438. -/
  | readWriteMultipleRegisters (slave : Byte) (raddr rcount waddr wcount : Word16) (values : List Word16)
  /-- PDU_REQ_READ_COILS, rules R148 and R430. -/
  | pduReqReadCoils (a q : Word16)
  /-- PDU_REQ_READ_DISCRETE_INPUTS, rules R148 and R431. -/
  | pduReqReadDiscreteInputs (a q : Word16)
  /-- PDU_REQ_READ_HOLDING_REGISTERS, rules R148 and R432. -/
  | pduReqReadHoldingRegisters (a q : Word16)
  /-- PDU_REQ_READ_INPUT_REGISTERS, rules R148 and R433. -/
  | pduReqReadInputRegisters (a q : Word16)
  /-- PDU_REQ_WRITE_SINGLE_COIL, rules R148 and R434. -/
  | pduReqWriteSingleCoil (a v : Word16)
  /-- PDU_REQ_WRITE_SINGLE_REGISTER, rules R148 and R435. -/
  | pduReqWriteSingleRegister (a v : Word16)
  /-- PDU_REQ_WRITE_MULTIPLE_COILS, rules R148 and R436. -/
  | pduReqWriteMultipleCoils (a q : Word16) (bc : Byte) (d : List Byte)
  /-- PDU_REQ_WRITE_MULTIPLE_REGISTERS, rules R148 and R437. -/
  | pduReqWriteMultipleRegisters (a q : Word16) (bc : Byte) (values : List Word16)
  /-- PDU_REQ_READ_WRITE_MULTIPLE_REGISTERS, rules R148 and R438. -/
  | pduReqReadWriteMultipleRegisters (ra rq wa wq : Word16) (bc : Byte) (values : List Word16)
  /-- PDU_RSP_READ_COILS, rules R149 and R461. -/
  | pduRspReadCoils (bc : Byte) (d : List Byte)
  /-- PDU_RSP_READ_DISCRETE_INPUTS, rules R149 and R461. -/
  | pduRspReadDiscreteInputs (bc : Byte) (d : List Byte)
  /-- PDU_RSP_READ_HOLDING_REGISTERS, rules R149 and R462. -/
  | pduRspReadHoldingRegisters (bc : Byte) (values : List Word16)
  /-- PDU_RSP_READ_INPUT_REGISTERS, rules R149 and R462. -/
  | pduRspReadInputRegisters (bc : Byte) (values : List Word16)
  /-- PDU_RSP_WRITE_SINGLE_COIL, rules R149 and R464. -/
  | pduRspWriteSingleCoil (a v : Word16)
  /-- PDU_RSP_WRITE_SINGLE_REGISTER, rules R149 and R465. -/
  | pduRspWriteSingleRegister (a v : Word16)
  /-- PDU_RSP_WRITE_MULTIPLE_COILS, rules R149 and R466. -/
  | pduRspWriteMultipleCoils (a q : Word16)
  /-- PDU_RSP_WRITE_MULTIPLE_REGISTERS, rules R149 and R466. -/
  | pduRspWriteMultipleRegisters (a q : Word16)
  /-- PDU_RSP_READ_WRITE_MULTIPLE_REGISTERS, rules R149 and R467. -/
  | pduRspReadWriteMultipleRegisters (bc : Byte) (values : List Word16)
  /-- PDU_RSP_EXCEPTION, rules R150 and R468; `fc` is the low seven bits of the function code. -/
  | pduRspException (fc : BitVec 7) (code : Byte)
  /-- PDU_RSP_OTHER, rule R469: a function code with bit 7 clear that is none of the nine. -/
  | pduRspOther (fc : Byte) (data : List Byte)
  /-- RTU_ADU, rule R140. -/
  | rtuAdu (address : Byte) (pdu : List Byte) (crcLo crcHi : Byte)
  /-- ASCII_ADU, rule R143. -/
  | asciiAdu (address : Byte) (pdu : List Byte) (lrc : Byte)
  deriving DecidableEq, Repr

end Sys2Proof
end

