-- ==== Sys2Proof/WellFormed.lean ====
section
/-! DEFINITION. Which instructions the formats of spec/30_encoding.md can spell: the checks on operands that the types
of `Instr` do not already make. The command decoder refuses an instruction that fails one (rules R171, R631). -/

namespace Sys2Proof

/-- `ceil_div(count, 8)`, the number of bytes that hold `count` coils (rule R152). -/
def coilBytes (count : Word16) : Nat := (count.toNat + 7) / 8

/-- The longest PDU (rule R146). -/
def maxPdu : Nat := 252

/-- The nine function codes of rule R146. -/
def supportedFunction (fc : Byte) : Bool :=
  fc == 0x01#8 || fc == 0x02#8 || fc == 0x03#8 || fc == 0x04#8 || fc == 0x05#8 || fc == 0x06#8 ||
  fc == 0x0F#8 || fc == 0x10#8 || fc == 0x17#8

/-- A coil value on the wire is 0xFF00 or 0x0000 (rule R153). -/
def coilValue (v : Word16) : Bool := v == 0xFF00#16 || v == 0x0000#16

/-- The byte count of a reply with `n` data bytes: it says `n`, `n` is at least `least`, and the PDU fits (R149, R461, R462). -/
def replyCount (bc : Byte) (n least : Nat) : Bool :=
  bc.toNat == n && decide (least ≤ n) && decide (2 + n ≤ maxPdu)

/-- The operands are among those the formats can spell. -/
def Instr.wf : Instr → Bool
  | .writeSingleCoil _ _ value => value == 0x00#8 || value == 0x01#8
  | .writeMultipleCoils _ _ count bits => bits.length == coilBytes count
  | .writeMultipleRegisters _ _ count values => values.length == count.toNat
  | .readWriteMultipleRegisters _ _ _ _ wcount values => values.length == wcount.toNat
  | .pduReqWriteSingleCoil _ v => coilValue v
  | .pduReqWriteMultipleCoils _ q bc d =>
      bc.toNat == coilBytes q && d.length == coilBytes q && decide (6 + d.length ≤ maxPdu)
  | .pduReqWriteMultipleRegisters _ q bc values =>
      bc.toNat == 2 * q.toNat && values.length == q.toNat && decide (6 + 2 * values.length ≤ maxPdu)
  | .pduReqReadWriteMultipleRegisters _ _ _ wq bc values =>
      bc.toNat == 2 * wq.toNat && values.length == wq.toNat && decide (10 + 2 * values.length ≤ maxPdu)
  | .pduRspReadCoils bc d => replyCount bc d.length 1
  | .pduRspReadDiscreteInputs bc d => replyCount bc d.length 1
  | .pduRspReadHoldingRegisters bc values => replyCount bc (2 * values.length) 2
  | .pduRspReadInputRegisters bc values => replyCount bc (2 * values.length) 2
  | .pduRspWriteSingleCoil _ v => coilValue v
  | .pduRspReadWriteMultipleRegisters bc values => replyCount bc (2 * values.length) 2
  | .pduRspOther fc data => fc.toNat < 128 && !supportedFunction fc && decide (1 + data.length ≤ maxPdu)
  | .rtuAdu _ pdu _ _ => decide (1 ≤ pdu.length) && decide (pdu.length ≤ maxPdu)
  | .asciiAdu _ pdu _ => decide (1 ≤ pdu.length) && decide (pdu.length ≤ maxPdu)
  | .rtuReset | .ascReset | .rtuSetup .. | .ascSetTimeout _ | .rtuSetStationAddress _ | .ascSetStationAddress _
  | .rtuPoll | .ascPoll | .rtuBeginSend | .ascBeginSend | .rtuSend | .ascSend | .rtuFinished | .ascFinished
  | .bufRead .. | .bufWrite .. | .setFrame .. | .readStatus _
  | .mReset | .mSetResponseTimeout _ | .mSetTurnaround _ | .mPoll | .mAckError | .mReadStatus
  | .readCoils .. | .readDiscreteInputs .. | .readHoldingRegisters .. | .readInputRegisters ..
  | .writeSingleRegister ..
  | .pduReqReadCoils .. | .pduReqReadDiscreteInputs .. | .pduReqReadHoldingRegisters .. | .pduReqReadInputRegisters ..
  | .pduReqWriteSingleRegister .. | .pduRspWriteSingleRegister .. | .pduRspWriteMultipleCoils ..
  | .pduRspWriteMultipleRegisters .. | .pduRspException .. => true

end Sys2Proof
end

