-- ==== Sys2Proof/Decode.lean ====
section
/-! DEFINITION. Bit fields, byte order and hex characters (spec/20_memory.md section 3, spec/30_encoding.md section 2);
the byte layouts of the PDUs (rules R148 to R150); the decoder of each port, total on byte lists; the encoder, written
from the same tables; and the reading of a word numbered as spec/opcode_table.json numbers it. -/

namespace Sys2Proof

/-! ### Bit fields and byte order -/

/-- `hi8(v) = v[15:8]` (rule R12). -/
def hi8 (v : Word16) : Byte := v.extractLsb' 8 8

/-- `lo8(v) = v[7:0]` (rule R12). -/
def lo8 (v : Word16) : Byte := v.extractLsb' 0 8

/-- `be16(h, l) = h*256 + l` (rule R12): a big-endian 16-bit field (rule R112). -/
def be16 (h l : Byte) : Word16 := h ++ l

/-- A big-endian 32-bit operand (rule R170). -/
def be32 (b3 b2 b1 b0 : Byte) : Word32 := (b3 ++ b2) ++ (b1 ++ b0)

/-- The four bytes of a 32-bit operand, the most significant first (rule R170). -/
def bytesOf32 (v : Word32) : List Byte :=
  [v.extractLsb' 24 8, v.extractLsb' 16 8, v.extractLsb' 8 8, v.extractLsb' 0 8]

/-- A sequence of 16-bit values as big-endian pairs (rules R437, R438). -/
def bytesOfWords : List Word16 → List Byte
  | [] => []
  | w :: ws => hi8 w :: lo8 w :: bytesOfWords ws

/-- Big-endian pairs as 16-bit values (rule R462); none where a byte is left over. -/
def wordsOfBytes : List Byte → Option (List Word16)
  | [] => some []
  | [_] => none
  | h :: l :: rest => (wordsOfBytes rest).map (be16 h l :: ·)

/-! ### Characters of the ASCII format -/

/-- `:` (rule R143). -/
def chColon : Byte := 0x3A#8

/-- CR (rule R143). -/
def chCr : Byte := 0x0D#8

/-- LF (rule R143). -/
def chLf : Byte := 0x0A#8

/-- `v[7:4]`. -/
def highNibble (b : Byte) : BitVec 4 := b.extractLsb' 4 4

/-- `v[3:0]`. -/
def lowNibble (b : Byte) : BitVec 4 := b.extractLsb' 0 4

/-- `hexchar` (rule R145): upper case. -/
def hexchar (v : BitVec 4) : Byte :=
  if v.toNat ≤ 9 then BitVec.ofNat 8 (0x30 + v.toNat) else BitVec.ofNat 8 (0x41 + (v.toNat - 10))

/-- `hexval` (rule R145): both cases; none is INVALID. -/
def hexval (c : Byte) : Option (BitVec 4) :=
  if 0x30 ≤ c.toNat ∧ c.toNat ≤ 0x39 then some (BitVec.ofNat 4 (c.toNat - 0x30))
  else if 0x41 ≤ c.toNat ∧ c.toNat ≤ 0x46 then some (BitVec.ofNat 4 (c.toNat - 0x41 + 10))
  else if 0x61 ≤ c.toNat ∧ c.toNat ≤ 0x66 then some (BitVec.ofNat 4 (c.toNat - 0x61 + 10))
  else none

/-- `nib * 16 + h` (rule R154). -/
def byteOfNibbles (high low : BitVec 4) : Byte := high ++ low

/-- `hex(b)`: two characters, high nibble first (rules R114, R145). -/
def hexOf (b : Byte) : List Byte := [hexchar (highNibble b), hexchar (lowNibble b)]

/-- The characters of a byte sequence (rule R143). -/
def hexOfBytes : List Byte → List Byte
  | [] => []
  | b :: bs => hexchar (highNibble b) :: hexchar (lowNibble b) :: hexOfBytes bs

/-- The bytes that hex pairs ended by CR LF spell (rule R143); either case is read (DEDUCED, safe: notes/assumptions/15.md). -/
def bytesOfHex : List Byte → Option (List Byte)
  | h :: l :: rest =>
      if h = chCr ∧ l = chLf ∧ rest = [] then some []
      else match hexval h, hexval l with
        | some x, some y => (bytesOfHex rest).map (byteOfNibbles x y :: ·)
        | _, _ => none
  | _ => none

/-! ### Layouts of the PDUs and the ADUs -/

/-- The requests of five bytes: function code, address, quantity or value (rule R148). -/
def pduWords (fc : Byte) (a v : Word16) : List Byte := [fc, hi8 a, lo8 a, hi8 v, lo8 v]

/-- Write Multiple Coils (rule R148). -/
def pduWriteCoils (a q : Word16) (bc : Byte) (d : List Byte) : List Byte :=
  [0x0F#8, hi8 a, lo8 a, hi8 q, lo8 q, bc] ++ d

/-- Write Multiple Registers (rule R148). -/
def pduWriteRegisters (a q : Word16) (bc : Byte) (values : List Word16) : List Byte :=
  [0x10#8, hi8 a, lo8 a, hi8 q, lo8 q, bc] ++ bytesOfWords values

/-- Read/Write Multiple Registers (rule R148). -/
def pduReadWriteRegisters (ra rq wa wq : Word16) (bc : Byte) (values : List Word16) : List Byte :=
  [0x17#8, hi8 ra, lo8 ra, hi8 rq, lo8 rq, hi8 wa, lo8 wa, hi8 wq, lo8 wq, bc] ++ bytesOfWords values

/-- A reply with a byte count and data (rule R149). -/
def pduCounted (fc bc : Byte) (d : List Byte) : List Byte := fc :: bc :: d

/-- An exception reply (rule R150). -/
def pduException (fc : BitVec 7) (code : Byte) : List Byte := [1#1 ++ fc, code]

/-- An RTU ADU (rule R140): the CRC low byte first (rule R113). -/
def rtuAduBytes (address : Byte) (pdu : List Byte) (crcLo crcHi : Byte) : List Byte :=
  address :: (pdu ++ [crcLo, crcHi])

/-- An ASCII ADU (rule R143). -/
def asciiAduChars (address : Byte) (pdu : List Byte) (lrc : Byte) : List Byte :=
  chColon :: (hexOfBytes (address :: (pdu ++ [lrc])) ++ [chCr, chLf])

/-! ### Operand forms of the host commands (rule R170) -/

/-- No operands. -/
def operands0 (i : Instr) : List Byte → Option Instr
  | [] => some i
  | _ => none

/-- One operand of 8 bits. -/
def operands8 (f : Byte → Instr) : List Byte → Option Instr
  | [a] => some (f a)
  | _ => none

/-- One operand of 16 bits. -/
def operands16 (f : Word16 → Instr) : List Byte → Option Instr
  | [h, l] => some (f (be16 h l))
  | _ => none

/-- One operand of 32 bits. -/
def operands32 (f : Word32 → Instr) : List Byte → Option Instr
  | [b3, b2, b1, b0] => some (f (be32 b3 b2 b1 b0))
  | _ => none

/-- Three operands of 32 bits. -/
def operands32x3 (f : Word32 → Word32 → Word32 → Instr) : List Byte → Option Instr
  | [a3, a2, a1, a0, b3, b2, b1, b0, c3, c2, c1, c0] =>
      some (f (be32 a3 a2 a1 a0) (be32 b3 b2 b1 b0) (be32 c3 c2 c1 c0))
  | _ => none

/-- 16 bits, then 8 bits. -/
def operands16x8 (f : Word16 → Byte → Instr) : List Byte → Option Instr
  | [h, l, v] => some (f (be16 h l) v)
  | _ => none

/-- 8 bits, then 16 bits. -/
def operands8x16 (f : Byte → Word16 → Instr) : List Byte → Option Instr
  | [a, h, l] => some (f a (be16 h l))
  | _ => none

/-- 8 bits, then two of 16 bits: slave, address, count or value. -/
def operands8x16x16 (f : Byte → Word16 → Word16 → Instr) : List Byte → Option Instr
  | [s, ah, al, ch, cl] => some (f s (be16 ah al) (be16 ch cl))
  | _ => none

/-- WRITE_SINGLE_COIL's operands: slave, address, and a value that is 0 or 1 (rule R171). -/
def operandsCoil : List Byte → Option Instr
  | [s, ah, al, v] => if v = 0x00#8 ∨ v = 0x01#8 then some (.writeSingleCoil s (be16 ah al) v) else none
  | _ => none

/-- WRITE_MULTIPLE_COILS's operands: the array is as long as the count says (rules R170, R631). -/
def operandsCoils : List Byte → Option Instr
  | s :: ah :: al :: ch :: cl :: bits =>
      if bits.length = coilBytes (be16 ch cl) then some (.writeMultipleCoils s (be16 ah al) (be16 ch cl) bits) else none
  | _ => none

/-- WRITE_MULTIPLE_REGISTERS's operands: the array is as long as the count says (rules R170, R631). -/
def operandsRegisters : List Byte → Option Instr
  | s :: ah :: al :: ch :: cl :: rest =>
      match wordsOfBytes rest with
      | some values =>
          if values.length = (be16 ch cl).toNat then some (.writeMultipleRegisters s (be16 ah al) (be16 ch cl) values)
          else none
      | none => none
  | _ => none

/-- READ_WRITE_MULTIPLE_REGISTERS's operands: the array is as long as the write count says (rules R170, R631). -/
def operandsReadWrite : List Byte → Option Instr
  | s :: rah :: ral :: rch :: rcl :: wah :: wal :: wch :: wcl :: rest =>
      match wordsOfBytes rest with
      | some values =>
          if values.length = (be16 wch wcl).toNat then
            some (.readWriteMultipleRegisters s (be16 rah ral) (be16 rch rcl) (be16 wah wal) (be16 wch wcl) values)
          else none
      | none => none
  | _ => none

/-! ### The decoders -/

/-- The commands of a framer (rule R170). An opcode that is not here, SETUP sent to ASCII and SET_TIMEOUT sent to RTU
among them, is refused (rules R171, R631). -/
def decodeFramer (u : FramerKind) (op : Byte) (args : List Byte) : Option Instr :=
  if op = 0x00#8 then operands0 (match u with | .rtu => .rtuReset | .ascii => .ascReset) args
  else if op = 0x01#8 then (match u with | .rtu => operands32x3 .rtuSetup args | .ascii => none)
  else if op = 0x02#8 then (match u with | .rtu => none | .ascii => operands32 .ascSetTimeout args)
  else if op = 0x03#8 then
    operands8 (match u with | .rtu => .rtuSetStationAddress | .ascii => .ascSetStationAddress) args
  else if op = 0x04#8 then operands0 (match u with | .rtu => .rtuPoll | .ascii => .ascPoll) args
  else if op = 0x05#8 then operands0 (match u with | .rtu => .rtuBeginSend | .ascii => .ascBeginSend) args
  else if op = 0x06#8 then operands0 (match u with | .rtu => .rtuSend | .ascii => .ascSend) args
  else if op = 0x07#8 then operands0 (match u with | .rtu => .rtuFinished | .ascii => .ascFinished) args
  else if op = 0x08#8 then operands16 (.bufRead u) args
  else if op = 0x09#8 then operands16x8 (.bufWrite u) args
  else if op = 0x0A#8 then operands8x16 (.setFrame u) args
  else if op = 0x0B#8 then operands0 (.readStatus u) args
  else none

/-- The commands of the master engine (rule R170). -/
def decodeMaster (op : Byte) (args : List Byte) : Option Instr :=
  if op = 0x20#8 then operands0 .mReset args
  else if op = 0x21#8 then operands32 .mSetResponseTimeout args
  else if op = 0x22#8 then operands32 .mSetTurnaround args
  else if op = 0x23#8 then operands0 .mPoll args
  else if op = 0x24#8 then operands0 .mAckError args
  else if op = 0x25#8 then operands0 .mReadStatus args
  else if op = 0x31#8 then operands8x16x16 .readCoils args
  else if op = 0x32#8 then operands8x16x16 .readDiscreteInputs args
  else if op = 0x33#8 then operands8x16x16 .readHoldingRegisters args
  else if op = 0x34#8 then operands8x16x16 .readInputRegisters args
  else if op = 0x35#8 then operandsCoil args
  else if op = 0x36#8 then operands8x16x16 .writeSingleRegister args
  else if op = 0x3F#8 then operandsCoils args
  else if op = 0x40#8 then operandsRegisters args
  else if op = 0x47#8 then operandsReadWrite args
  else none

/-- Two 16-bit fields of a PDU (rule R148). -/
def fieldsWords (f : Word16 → Word16 → Instr) : List Byte → Option Instr
  | [ah, al, vh, vl] => some (f (be16 ah al) (be16 vh vl))
  | _ => none

/-- The 16-bit values of a PDU's data field (rules R148, R149). -/
def fieldsValues (f : List Word16 → Instr) (d : List Byte) : Option Instr := (wordsOfBytes d).map f

/-- The fields of a request PDU after its function code (rule R148), before the checks of `Instr.wf`. -/
def requestFields (fc : Byte) (args : List Byte) : Option Instr :=
  if fc = 0x01#8 then fieldsWords .pduReqReadCoils args
  else if fc = 0x02#8 then fieldsWords .pduReqReadDiscreteInputs args
  else if fc = 0x03#8 then fieldsWords .pduReqReadHoldingRegisters args
  else if fc = 0x04#8 then fieldsWords .pduReqReadInputRegisters args
  else if fc = 0x05#8 then fieldsWords .pduReqWriteSingleCoil args
  else if fc = 0x06#8 then fieldsWords .pduReqWriteSingleRegister args
  else if fc = 0x0F#8 then
    (match args with
      | ah :: al :: qh :: ql :: bc :: d => some (.pduReqWriteMultipleCoils (be16 ah al) (be16 qh ql) bc d)
      | _ => none)
  else if fc = 0x10#8 then
    (match args with
      | ah :: al :: qh :: ql :: bc :: d =>
          fieldsValues (.pduReqWriteMultipleRegisters (be16 ah al) (be16 qh ql) bc) d
      | _ => none)
  else if fc = 0x17#8 then
    (match args with
      | rah :: ral :: rqh :: rql :: wah :: wal :: wqh :: wql :: bc :: d =>
          fieldsValues
            (.pduReqReadWriteMultipleRegisters (be16 rah ral) (be16 rqh rql) (be16 wah wal) (be16 wqh wql) bc) d
      | _ => none)
  else none

/-- The fields of a reply PDU after its function code (rules R149, R150, R469), before the checks of `Instr.wf`. -/
def replyFields (fc : Byte) (args : List Byte) : Option Instr :=
  if 128 ≤ fc.toNat then operands8 (.pduRspException (fc.extractLsb' 0 7)) args
  else if fc = 0x01#8 then (match args with | bc :: d => some (.pduRspReadCoils bc d) | _ => none)
  else if fc = 0x02#8 then (match args with | bc :: d => some (.pduRspReadDiscreteInputs bc d) | _ => none)
  else if fc = 0x03#8 then
    (match args with | bc :: d => fieldsValues (.pduRspReadHoldingRegisters bc) d | _ => none)
  else if fc = 0x04#8 then
    (match args with | bc :: d => fieldsValues (.pduRspReadInputRegisters bc) d | _ => none)
  else if fc = 0x05#8 then fieldsWords .pduRspWriteSingleCoil args
  else if fc = 0x06#8 then fieldsWords .pduRspWriteSingleRegister args
  else if fc = 0x0F#8 then fieldsWords .pduRspWriteMultipleCoils args
  else if fc = 0x10#8 then fieldsWords .pduRspWriteMultipleRegisters args
  else if fc = 0x17#8 then
    (match args with | bc :: d => fieldsValues (.pduRspReadWriteMultipleRegisters bc) d | _ => none)
  else some (.pduRspOther fc args)

/-- The fields of an RTU ADU: the first byte is the address, the last two are the CRC (rule R140). -/
def rtuAduFields : List Byte → Option Instr
  | [] => none
  | address :: body =>
      match body.drop (body.length - 2) with
      | [lo, hi] => some (.rtuAdu address (body.take (body.length - 2)) lo hi)
      | _ => none

/-- The fields of an ASCII ADU: `:`, hex pairs, CR LF; the first byte is the address, the last the LRC (rule R143). -/
def asciiAduFields : List Byte → Option Instr
  | [] => none
  | c :: chars =>
      if c = chColon then
        match bytesOfHex chars with
        | some (address :: body) =>
            match body.drop (body.length - 1) with
            | [lrc] => some (.asciiAdu address (body.take (body.length - 1)) lrc)
            | _ => none
        | _ => none
      else none

/-- An instruction that passes `Instr.wf`. -/
def checked (i : Option Instr) : Option Instr := i.filter Instr.wf

/-- The decoder: what a message sent to a port says; none where it refuses. The message is read whole: bytes after the
last operand are no part of any command (rule R170), so a message that has some is refused (DESIGN CHOICE, safe:
notes/assumptions/10.md). -/
def decode (p : Port) (message : List Byte) : Option Instr :=
  match p, message with
  | .rtu, op :: args => decodeFramer .rtu op args
  | .asc, op :: args => decodeFramer .ascii op args
  | .mst, op :: args => decodeMaster op args
  | .request, fc :: args => checked (requestFields fc args)
  | .reply, fc :: args => checked (replyFields fc args)
  | .rtuLine, bs => checked (rtuAduFields bs)
  | .ascLine, cs => checked (asciiAduFields cs)
  | .rtu, [] | .asc, [] | .mst, [] | .request, [] | .reply, [] => none

/-! ### The encoder -/

/-- The port that takes commands for a framer. -/
def framerPort : FramerKind → Port
  | .rtu => .rtu
  | .ascii => .asc

/-- The port an instruction's message is sent to. -/
def portOf : Instr → Port
  | .rtuReset | .rtuSetup .. | .rtuSetStationAddress _ | .rtuPoll | .rtuBeginSend | .rtuSend | .rtuFinished => .rtu
  | .ascReset | .ascSetTimeout _ | .ascSetStationAddress _ | .ascPoll | .ascBeginSend | .ascSend | .ascFinished => .asc
  | .bufRead u _ | .bufWrite u _ _ | .setFrame u _ _ | .readStatus u => framerPort u
  | .mReset | .mSetResponseTimeout _ | .mSetTurnaround _ | .mPoll | .mAckError | .mReadStatus
  | .readCoils .. | .readDiscreteInputs .. | .readHoldingRegisters .. | .readInputRegisters ..
  | .writeSingleCoil .. | .writeSingleRegister .. | .writeMultipleCoils .. | .writeMultipleRegisters ..
  | .readWriteMultipleRegisters .. => .mst
  | .pduReqReadCoils .. | .pduReqReadDiscreteInputs .. | .pduReqReadHoldingRegisters ..
  | .pduReqReadInputRegisters .. | .pduReqWriteSingleCoil .. | .pduReqWriteSingleRegister ..
  | .pduReqWriteMultipleCoils .. | .pduReqWriteMultipleRegisters .. | .pduReqReadWriteMultipleRegisters .. => .request
  | .pduRspReadCoils .. | .pduRspReadDiscreteInputs .. | .pduRspReadHoldingRegisters .. | .pduRspReadInputRegisters ..
  | .pduRspWriteSingleCoil .. | .pduRspWriteSingleRegister .. | .pduRspWriteMultipleCoils ..
  | .pduRspWriteMultipleRegisters .. | .pduRspReadWriteMultipleRegisters .. | .pduRspException ..
  | .pduRspOther .. => .reply
  | .rtuAdu .. => .rtuLine
  | .asciiAdu .. => .ascLine

/-- An opcode, a slave address and two 16-bit operands (rule R170). -/
def commandBytes (op s : Byte) (a c : Word16) : List Byte := [op, s, hi8 a, lo8 a, hi8 c, lo8 c]

/-- The message that spells an instruction, from the tables of rules R140, R143, R148 to R150 and R170. -/
def encode : Instr → List Byte
  | .rtuReset | .ascReset => [0x00#8]
  | .rtuSetup baud ifdUs icdUs => 0x01#8 :: (bytesOf32 baud ++ bytesOf32 ifdUs ++ bytesOf32 icdUs)
  | .ascSetTimeout ms => 0x02#8 :: bytesOf32 ms
  | .rtuSetStationAddress addr | .ascSetStationAddress addr => [0x03#8, addr]
  | .rtuPoll | .ascPoll => [0x04#8]
  | .rtuBeginSend | .ascBeginSend => [0x05#8]
  | .rtuSend | .ascSend => [0x06#8]
  | .rtuFinished | .ascFinished => [0x07#8]
  | .bufRead _ i => [0x08#8, hi8 i, lo8 i]
  | .bufWrite _ i v => [0x09#8, hi8 i, lo8 i, v]
  | .setFrame _ addr n => [0x0A#8, addr, hi8 n, lo8 n]
  | .readStatus _ => [0x0B#8]
  | .mReset => [0x20#8]
  | .mSetResponseTimeout ms => 0x21#8 :: bytesOf32 ms
  | .mSetTurnaround ms => 0x22#8 :: bytesOf32 ms
  | .mPoll => [0x23#8]
  | .mAckError => [0x24#8]
  | .mReadStatus => [0x25#8]
  | .readCoils s a c => commandBytes 0x31#8 s a c
  | .readDiscreteInputs s a c => commandBytes 0x32#8 s a c
  | .readHoldingRegisters s a c => commandBytes 0x33#8 s a c
  | .readInputRegisters s a c => commandBytes 0x34#8 s a c
  | .writeSingleCoil s a v => [0x35#8, s, hi8 a, lo8 a, v]
  | .writeSingleRegister s a v => commandBytes 0x36#8 s a v
  | .writeMultipleCoils s a c bits => commandBytes 0x3F#8 s a c ++ bits
  | .writeMultipleRegisters s a c values => commandBytes 0x40#8 s a c ++ bytesOfWords values
  | .readWriteMultipleRegisters s ra rc wa wc values =>
      commandBytes 0x47#8 s ra rc ++ [hi8 wa, lo8 wa, hi8 wc, lo8 wc] ++ bytesOfWords values
  | .pduReqReadCoils a q => pduWords 0x01#8 a q
  | .pduReqReadDiscreteInputs a q => pduWords 0x02#8 a q
  | .pduReqReadHoldingRegisters a q => pduWords 0x03#8 a q
  | .pduReqReadInputRegisters a q => pduWords 0x04#8 a q
  | .pduReqWriteSingleCoil a v => pduWords 0x05#8 a v
  | .pduReqWriteSingleRegister a v => pduWords 0x06#8 a v
  | .pduReqWriteMultipleCoils a q bc d => pduWriteCoils a q bc d
  | .pduReqWriteMultipleRegisters a q bc values => pduWriteRegisters a q bc values
  | .pduReqReadWriteMultipleRegisters ra rq wa wq bc values => pduReadWriteRegisters ra rq wa wq bc values
  | .pduRspReadCoils bc d => pduCounted 0x01#8 bc d
  | .pduRspReadDiscreteInputs bc d => pduCounted 0x02#8 bc d
  | .pduRspReadHoldingRegisters bc values => pduCounted 0x03#8 bc (bytesOfWords values)
  | .pduRspReadInputRegisters bc values => pduCounted 0x04#8 bc (bytesOfWords values)
  | .pduRspWriteSingleCoil a v => pduWords 0x05#8 a v
  | .pduRspWriteSingleRegister a v => pduWords 0x06#8 a v
  | .pduRspWriteMultipleCoils a q => pduWords 0x0F#8 a q
  | .pduRspWriteMultipleRegisters a q => pduWords 0x10#8 a q
  | .pduRspReadWriteMultipleRegisters bc values => pduCounted 0x17#8 bc (bytesOfWords values)
  | .pduRspException fc code => pduException fc code
  | .pduRspOther fc data => fc :: data
  | .rtuAdu address pdu crcLo crcHi => rtuAduBytes address pdu crcLo crcHi
  | .asciiAdu address pdu lrc => asciiAduChars address pdu lrc

/-! ### The opcode table -/

/-- A row's first byte: `b` belongs to the row when `b & mask = value` (spec/opcode_table.json, "match" and "mask"). -/
structure RowByte where
  value : Byte
  mask : Byte
  deriving DecidableEq, Repr

/-- A row whose first byte is fixed. -/
def exactByte (b : Byte) : RowByte := ⟨b, 0xFF#8⟩

/-- "match" and "mask" of each row of spec/opcode_table.json. -/
def rowByte : Instr → RowByte
  | .rtuReset | .ascReset => exactByte 0x00#8
  | .rtuSetup .. => exactByte 0x01#8
  | .ascSetTimeout _ => exactByte 0x02#8
  | .rtuSetStationAddress _ | .ascSetStationAddress _ => exactByte 0x03#8
  | .rtuPoll | .ascPoll => exactByte 0x04#8
  | .rtuBeginSend | .ascBeginSend => exactByte 0x05#8
  | .rtuSend | .ascSend => exactByte 0x06#8
  | .rtuFinished | .ascFinished => exactByte 0x07#8
  | .bufRead .. => exactByte 0x08#8
  | .bufWrite .. => exactByte 0x09#8
  | .setFrame .. => exactByte 0x0A#8
  | .readStatus _ => exactByte 0x0B#8
  | .mReset => exactByte 0x20#8
  | .mSetResponseTimeout _ => exactByte 0x21#8
  | .mSetTurnaround _ => exactByte 0x22#8
  | .mPoll => exactByte 0x23#8
  | .mAckError => exactByte 0x24#8
  | .mReadStatus => exactByte 0x25#8
  | .readCoils .. => exactByte 0x31#8
  | .readDiscreteInputs .. => exactByte 0x32#8
  | .readHoldingRegisters .. => exactByte 0x33#8
  | .readInputRegisters .. => exactByte 0x34#8
  | .writeSingleCoil .. => exactByte 0x35#8
  | .writeSingleRegister .. => exactByte 0x36#8
  | .writeMultipleCoils .. => exactByte 0x3F#8
  | .writeMultipleRegisters .. => exactByte 0x40#8
  | .readWriteMultipleRegisters .. => exactByte 0x47#8
  | .pduReqReadCoils .. | .pduRspReadCoils .. => exactByte 0x01#8
  | .pduReqReadDiscreteInputs .. | .pduRspReadDiscreteInputs .. => exactByte 0x02#8
  | .pduReqReadHoldingRegisters .. | .pduRspReadHoldingRegisters .. => exactByte 0x03#8
  | .pduReqReadInputRegisters .. | .pduRspReadInputRegisters .. => exactByte 0x04#8
  | .pduReqWriteSingleCoil .. | .pduRspWriteSingleCoil .. => exactByte 0x05#8
  | .pduReqWriteSingleRegister .. | .pduRspWriteSingleRegister .. => exactByte 0x06#8
  | .pduReqWriteMultipleCoils .. | .pduRspWriteMultipleCoils .. => exactByte 0x0F#8
  | .pduReqWriteMultipleRegisters .. | .pduRspWriteMultipleRegisters .. => exactByte 0x10#8
  | .pduReqReadWriteMultipleRegisters .. | .pduRspReadWriteMultipleRegisters .. => exactByte 0x17#8
  | .pduRspException .. => ⟨0x80#8, 0x80#8⟩
  | .pduRspOther .. => ⟨0x00#8, 0x80#8⟩
  | .rtuAdu .. => ⟨0x00#8, 0x00#8⟩
  | .asciiAdu .. => exactByte 0x3A#8

/-! ### Words numbered as the opcode table numbers them -/

/-- The bytes of a word of `nbits` bits: bit 0 is the least significant bit of the first byte. -/
def wordBytes (nbits w : Nat) : List Byte := (List.range (nbits / 8)).map fun k => BitVec.ofNat 8 (w >>> (8 * k))

/-- The ports in the order of the opcode table's rows (DESIGN CHOICE, notes/assumptions/3.md). -/
def portsInTableOrder : List Port := [.rtu, .asc, .mst, .request, .reply, .ascLine, .rtuLine]

/-- The most zero bytes of operands that follow a word: SETUP has twelve. -/
def maxZeroOperands : Nat := 12

/-- The shortest message of port `p` that begins with `bytes` and goes on with zeros, and its instruction. -/
def fetchFrom (bytes : List Byte) (p : Port) : Option (Port × List Byte × Instr) :=
  (List.range (maxZeroOperands + 1)).findSome? fun k =>
    (decode p (bytes ++ List.replicate k 0#8)).map fun i => (p, bytes ++ List.replicate k 0#8, i)

/-- The port, the message and the instruction of a word of the opcode table: the word has no destination, so the first
port in the table's order that reads it takes it (DESIGN CHOICE, notes/assumptions/3.md). -/
def fetchWord (nbits w : Nat) : Option (Port × List Byte × Instr) :=
  portsInTableOrder.findSome? (fetchFrom (wordBytes nbits w))

/-- The instruction the decoder reads from a word numbered as spec/opcode_table.json numbers it. -/
def decodeTableWord (nbits w : Nat) : Option Instr := (fetchWord nbits w).map fun r => r.2.2

end Sys2Proof
end

