-- ==== Sys2Proof/Config.lean ====
section
/-! DEFINITION. The parameters of rule R10. The spec leaves their values open ("A model takes the following parameters as
arguments"), so they are one record of plain data that the state carries and no command writes: a statement about every
state holds for every value of every parameter (DESIGN CHOICE, notes/assumptions/4.md). -/

namespace Sys2Proof

/-- The implementation parameters (rule R10). -/
structure Config where
  /-- `W` (TICK_WIDTH): the width of the tick counter, at least 8. -/
  tickWidth : Nat
  /-- `UPT` (US_PER_TICK): microseconds per tick; 0 drives the framers to `exception`. -/
  usPerTick : Nat
  /-- `BUFFER_MAX`: the capacity of each frame buffer, 1 to 65535 bytes. -/
  bufferMax : Nat
  /-- `MIN_PDU`: the smallest PDU a received frame may carry, 1 to 252. -/
  minPdu : Nat
  /-- `FIXED_TIMING_BAUD`: the baud rate from which the fixed windows apply (rule R202). -/
  fixedTimingBaud : Nat
  /-- `FRAMER_KIND`: the framer the master engine is bound to; none where the block has no master engine (R631, R653). -/
  master : Option FramerKind
  deriving DecidableEq, Repr

/-- The constraints of rule R10. -/
def Config.wf (c : Config) : Bool :=
  decide (8 ≤ c.tickWidth) && decide (1 ≤ c.bufferMax) && decide (c.bufferMax ≤ 65535) &&
  decide (1 ≤ c.minPdu) && decide (c.minPdu ≤ 252) && decide (1 ≤ c.fixedTimingBaud)

/-- The values that `Machine.State.reset` takes: those of spec/95_test_vectors.md, with the master engine bound to the RTU
framer (DESIGN CHOICE, notes/assumptions/4.md). -/
def Config.default : Config where
  tickWidth := 16
  usPerTick := 100
  bufferMax := 256
  minPdu := 1
  fixedTimingBaud := 22000
  master := some .rtu

end Sys2Proof
end

