-- ==== Sys2Proof/Machine/Timing.lean ====
section
/-! DEFINITION. Tick arithmetic: the wrap-around-safe difference (rules R12, R209), and the conversions of microseconds and
milliseconds to ticks (rules R201 to R204, R302, R422). -/

namespace Sys2Proof.Machine

/-- `ceil_div(a, b)`, for `b >= 1` (rule R12). -/
def ceilDiv (a b : Nat) : Nat := (a + (b - 1)) / b

/-- `2^W`. -/
def tickModulus (c : Config) : Nat := 2 ^ c.tickWidth

/-- `sat_W(v)` (rule R12). -/
def satTicks (c : Config) (v : Nat) : Nat := min v (tickModulus c - 1)

/-- `a -_W b` (rule R12): unsigned subtraction modulo `2^W`. -/
def tickDiff (c : Config) (a b : Nat) : Nat := (a % tickModulus c + (tickModulus c - b % tickModulus c)) % tickModulus c

/-- `us_to_ticks` (rule R201): rounded up, at least 2 ticks, saturated. -/
def usToTicks (c : Config) (us : Nat) : Nat := satTicks c (max 2 (ceilDiv us c.usPerTick))

/-- The ASCII mid-frame timeout in ticks, for `UPT >= 1` (rule R302). -/
def timeoutTicks (c : Config) (ms : Nat) : Nat := satTicks c (max 2 (ceilDiv (ms * 1000) c.usPerTick))

/-- `ms_to_ticks` of the master engine (rule R422): no floor, and `2^W - 1` when `UPT = 0`. -/
def msToTicks (c : Config) (ms : Nat) : Nat :=
  if c.usPerTick = 0 then tickModulus c - 1 else satTicks c (ceilDiv (ms * 1000) c.usPerTick)

/-- The inter-character window in microseconds (rules R202 to R205). -/
def t15Us (c : Config) (baud icdUs : Nat) : Nat :=
  if icdUs ≠ 0 then icdUs else if c.fixedTimingBaud ≤ baud then 750 else ceilDiv 16500000 baud

/-- The inter-frame window in microseconds (rules R202 to R205). -/
def t35Us (c : Config) (baud ifdUs : Nat) : Nat :=
  if ifdUs ≠ 0 then ifdUs else if c.fixedTimingBaud ≤ baud then 1750 else ceilDiv 38500000 baud

/-- SETUP's arguments give no usable timing (rule R205). -/
def setupInvalid (c : Config) (baud ifdUs icdUs : Nat) : Bool :=
  c.usPerTick == 0 || (baud == 0 && (ifdUs == 0 || icdUs == 0))

/-- The largest PDU a framer accepts or sends: `CAP = min(BUFFER_MAX, 252)` (rules R10, R101). -/
def cap (c : Config) : Nat := min c.bufferMax 252

end Sys2Proof.Machine
end

