-- ==== Sys2Proof/Machine/State.lean ====
section
/-! DEFINITION. The state of the block (spec/10_state.md), the events it records (rule R620), the reasons of its faults
(rule R630), the inputs of a command (rules R32 to R34), and the state after reset (rule R653). -/

namespace Sys2Proof.Machine

/-- The RTU framer's state, in the order of its codes (rule R36). -/
inductive RtuSt where
  | exception | dump | idle | frameReady | queue | collision | receive | txAddr | txPdu | txCrc | txDrain | txWait
  deriving DecidableEq, Repr

/-- The ASCII framer's state, in the order of its codes (rule R50). -/
inductive AscSt where
  | exception | idle | frameReady | queue | collision | rxAddrHigh | rxAddrLow | rxPduHigh | rxPduLow | rxCr
  | txSof | txAddrHigh | txAddrLow | txPduHigh | txPduLow | txLrcHigh | txLrcLow | txCr | txLf | txWait
  deriving DecidableEq, Repr

/-- The master engine's state, in the order of its codes (rule R58). -/
inductive MstSt where
  | idle | waitingForReply | processingReply | waitingTurnaroundReply | processingError
  deriving DecidableEq, Repr

/-- The frame buffer (rule R35): the bytes that have been written, as (index, byte) pairs, indices strictly rising. An index
that is not listed has `written[i] = false` and holds no value (DEDUCED, safe: notes/assumptions/11.md). -/
abbrev Memory := List Host.Cell

/-- The RTU framer (rules R35 to R49). -/
structure RtuFramer where
  /-- `rtu.st` (R36). -/
  st : RtuSt
  /-- `rtu.configured` (R37). -/
  configured : Bool
  /-- `rtu.t15` in ticks (R38). The spec's own reset value is `none`: RESET writes it (R650; DEDUCED, safe:
  notes/assumptions/12.md). -/
  t15 : Option Nat
  /-- `rtu.t35` in ticks (R38). The spec's own reset value is `none`: RESET writes it (R650). -/
  t35 : Option Nat
  /-- `rtu.baud` (R39). -/
  baud : Word32
  /-- `rtu.ifd_us` (R39). -/
  ifdUs : Word32
  /-- `rtu.icd_us` (R39). -/
  icdUs : Word32
  /-- `rtu.station_address` (R40). -/
  stationAddress : Byte
  /-- `rtu.frame_address` (R41). -/
  frameAddress : Byte
  /-- `rtu.buffer_len` (R42). -/
  bufferLen : Nat
  /-- `rtu.crc` (R43). -/
  crc : Word16
  /-- `rtu.rx_count` (R44). -/
  rxCount : Nat
  /-- `rtu.hold0` (R45). -/
  hold0 : Byte
  /-- `rtu.hold1` (R45). -/
  hold1 : Byte
  /-- `rtu.hold_n` (R45): 0, 1 or 2. -/
  holdN : Fin 3
  /-- `rtu.last`, a tick (R46). -/
  last : Nat
  /-- `rtu.tx_index` (R47). -/
  txIndex : Nat
  /-- `rtu.tx_crc` (R48). -/
  txCrc : Word16
  /-- `rtu.txen` (R49): the level `SetTxEnable(v)` last drove (R124). -/
  txen : Bool
  /-- `buf` with its `written` flags (R35, R100). -/
  buf : Memory
  deriving DecidableEq, Repr

/-- The ASCII framer (rules R35, R50 to R57). -/
structure AscFramer where
  /-- `asc.st` (R50). -/
  st : AscSt
  /-- `asc.station_address` (R51). -/
  stationAddress : Byte
  /-- `asc.frame_address` (R51). -/
  frameAddress : Byte
  /-- `asc.buffer_len` (R51). -/
  bufferLen : Nat
  /-- `asc.lrc` (R52). -/
  lrc : Byte
  /-- `asc.nib` (R53). -/
  nib : BitVec 4
  /-- `asc.pend` (R54). -/
  pend : Byte
  /-- `asc.pend_valid` (R54). -/
  pendValid : Bool
  /-- `asc.last`, a tick (R55). -/
  last : Nat
  /-- `asc.timeout_ms` (R56). -/
  timeoutMs : Word32
  /-- `asc.timeout_ticks` (R56). -/
  timeoutTicks : Nat
  /-- `asc.tx_index` (R57). -/
  txIndex : Nat
  /-- `asc.tx_lrc` (R57). -/
  txLrc : Byte
  /-- `asc.txen` (R57): the level `SetTxEnable(v)` last drove (R124). -/
  txen : Bool
  /-- `buf` with its `written` flags (R35, R100). -/
  buf : Memory
  deriving DecidableEq, Repr

/-- The master engine (rules R58 to R61). -/
structure Master where
  /-- `mst.st` (R58). -/
  st : MstSt
  /-- `mst.slave` (R59). -/
  slave : Byte
  /-- `mst.read_address` (R59). -/
  readAddress : Word16
  /-- `mst.write_address` (R59). -/
  writeAddress : Word16
  /-- `mst.write_count` (R59). -/
  writeCount : Word16
  /-- `mst.stamp`, a tick (R60). -/
  stamp : Nat
  /-- `mst.response_timeout_ms` (R61). -/
  responseTimeoutMs : Word32
  /-- `mst.rt_ticks` (R61). -/
  rtTicks : Nat
  /-- `mst.turnaround_ms` (R61). -/
  turnaroundMs : Word32
  /-- `mst.ta_ticks` (R61). -/
  taTicks : Nat
  deriving DecidableEq, Repr

/-- The causes a framer records (rule R620). -/
inductive Cause where
  | config | interchar | overflow | collision | short | crc | address | rxTransport | txTransport
  | hex | sof | lrc | asciiTimeout
  deriving DecidableEq, Repr

/-- The events of rule R620. An event of a framer names the framer that records it, since this block holds one of each
kind (DEDUCED, notes/assumptions/6.md). -/
inductive Event where
  /-- FRAME_READY. -/
  | frameReady (unit : FramerKind)
  /-- CAUSE_CONFIG to CAUSE_ASCII_TIMEOUT. -/
  | cause (unit : FramerKind) (c : Cause)
  /-- M_RESPONSE for 0x01 and 0x02 (R461). -/
  | responseBits (fc : Byte) (address : Word16) (nbytes : Nat) (data : List Byte)
  /-- M_RESPONSE for 0x03 and 0x04 (R462). -/
  | responseRegisters (fc : Byte) (address : Word16) (n : Nat) (values : List Word16)
  /-- M_RESPONSE for 0x05 (R464). -/
  | responseCoil (address : Word16) (value : Bool)
  /-- M_RESPONSE for 0x06 (R465). -/
  | responseRegister (address value : Word16)
  /-- M_RESPONSE for 0x0F and 0x10 (R466). -/
  | responseCount (fc : Byte) (address count : Word16)
  /-- M_RESPONSE for 0x17 (R467). -/
  | responseReadWrite (address : Word16) (n : Nat) (values : List Word16) (writeAddress writeCount : Word16)
  /-- M_EXCEPTION (R468). -/
  | masterException (fc : BitVec 7) (code : Byte)
  /-- M_MALFORMED (R455). -/
  | malformed
  /-- M_STALE (R452). -/
  | stale
  /-- M_UNSOLICITED (R451). -/
  | unsolicited
  /-- M_TIMEOUT (R470). -/
  | timeout
  /-- M_TURNAROUND_DONE (R470). -/
  | turnaroundDone
  /-- M_ACK (R474). -/
  | ack
  /-- VERDICT (R454, R470). -/
  | verdict (v : Bool)
  deriving DecidableEq, Repr

/-- The reasons of `mpb.fault` (rule R630). A fault is the spec's own absorbing state: the command that raises it answers a
next state in which `fault` holds the reason, and no later command has an effect, so no step ends in `Outcome.fault`
(DEDUCED, notes/assumptions/5.md). Every reason is safe: the block gives the command no meaning. -/
inductive Fault where
  /-- NOT_CONFIGURED: raised by RTU POLL, BEGIN_SEND, SEND, FINISHED, the buffer commands and a master request on an RTU
  framer that has had no SETUP. Safe. -/
  | notConfigured
  /-- OWNERSHIP: raised by BUF_READ, BUF_WRITE and SET_FRAME while the host does not own the buffer. Safe. -/
  | ownership
  /-- BUF_INDEX: raised by a buffer access at or past BUFFER_MAX. Safe. -/
  | bufIndex
  /-- LENGTH: raised by SET_FRAME with n > CAP. Safe. -/
  | length
  /-- UNWRITTEN: raised by BUF_READ and SEND on a byte nothing has written. Safe. -/
  | unwritten
  /-- BAD_COMMAND: raised by the command decoder (R631) and by a master command where there is no master engine. Safe. -/
  | badCommand
  deriving DecidableEq, Repr

/-- The reasons a step can be refused. No step of this model ends in a refusal. -/
inductive Refusal where
  /-- Raised by an arm of `exec` that has no meaning yet; no arm of this model is one. Safe. -/
  | notModelled (mnemonic : String)
  deriving DecidableEq, Repr

/-- READ_STATUS's record (rule R172). -/
structure StatusRecord where
  st : Byte
  frameAddress : Byte
  bufferLen : Word16
  txen : Bool
  configured : Bool
  deriving DecidableEq, Repr

/-- What a command returns to the host (rule R170): "returned to the host; it is not written into block memory". -/
inductive Result where
  /-- No result, or the command raised a fault. -/
  | none
  | bool (b : Bool)
  /-- `ticks:W`, W bits wide. A POLL's is what is left of a threshold, which is a tick count (rules R38, R56); an
  M_POLL's is cut to W bits (`State.answerTicks`). -/
  | ticks (t : Nat)
  | byte (v : Byte)
  | status (r : StatusRecord)
  | masterStatus (st slave : Byte)
  deriving DecidableEq, Repr

/-- What the agents outside the block answer during one command (rules R8, R32, R120 to R123, R454), in the form of rule
R185's test notation: every answer the oracles may give within one command is some value of this record
(DEDUCED, notes/assumptions/7.md). -/
structure Inputs where
  /-- The tick clock's value; `Now()` is this modulo `2^W` (R32). -/
  now : Nat
  /-- `rx`: the bytes StreamRead returns, in order (R120). -/
  rx : List Byte
  /-- The answer after them: ERROR if true, NONE if false (R120). -/
  rxError : Bool
  /-- `tx-accept`: how many offers StreamWrite accepts; none accepts all (R122). -/
  txAccept : Option Nat
  /-- The answer to the offer after them: ERROR if true, 0 if false (R122). -/
  txError : Bool
  /-- `wc`: WriteComplete's answer (R123). -/
  writeComplete : Bool
  /-- `verdict`: the host handler's answer (R454, R470). -/
  verdict : Bool
  /-- The station address of the frame that carries a bare PDU; only the PDU rows read it (DESIGN CHOICE, notes/assumptions/2.md). -/
  address : Byte
  deriving DecidableEq, Repr

/-- What rule R185 takes where a line says nothing, at tick 0. -/
def Inputs.default : Inputs where
  now := 0
  rx := []
  rxError := false
  txAccept := none
  txError := false
  writeComplete := false
  verdict := true
  address := 0#8

/-- A message the host or the line has issued and the block has not yet run, with the answers of the agents during it. -/
structure Request where
  port : Port
  message : List Byte
  inputs : Inputs
  deriving DecidableEq, Repr

/-- The state of the block and of the model around it. The last five fields are the model's own (DESIGN CHOICE,
notes/assumptions/13.md). -/
structure State where
  /-- The parameters of rule R10. No command writes them. -/
  cfg : Config
  /-- The RTU framer. -/
  rtu : RtuFramer
  /-- The ASCII framer. -/
  asc : AscFramer
  /-- The master engine. -/
  mst : Master
  /-- `mpb.fault` (R64). -/
  fault : Option Fault
  /-- `mpb.events`, the oldest first (R65). -/
  events : List Event
  /-- The model's own: the result of the last command. -/
  result : Result
  /-- The model's own: the bytes the RTU framer's stream has accepted, the oldest first. -/
  rtuLine : List Byte
  /-- The model's own: the characters the ASCII framer's stream has accepted, the oldest first. -/
  ascLine : List Byte
  /-- The model's own: the answers of the agents outside the block during the command that runs. -/
  inputs : Inputs
  /-- The model's own: the messages issued and not yet run, the next one first. -/
  pending : List Request
  deriving DecidableEq, Repr

/-- The RTU framer after RESET at tick `t` with the buffer `b`, which RESET leaves alone (rule R650). -/
def RtuFramer.reset (t : Nat) (b : Memory) : RtuFramer where
  st := .idle
  configured := false
  t15 := none
  t35 := none
  baud := 0#32
  ifdUs := 0#32
  icdUs := 0#32
  stationAddress := 0#8
  frameAddress := 0#8
  bufferLen := 0
  crc := 0xFFFF#16
  rxCount := 0
  hold0 := 0#8
  hold1 := 0#8
  holdN := 0
  last := t
  txIndex := 0
  txCrc := 0#16
  txen := false
  buf := b

/-- The ASCII framer after RESET at tick `t` with the buffer `b` (rule R651). -/
def AscFramer.reset (c : Config) (t : Nat) (b : Memory) : AscFramer where
  st := if c.usPerTick = 0 then .exception else .idle
  stationAddress := 0#8
  frameAddress := 0#8
  bufferLen := 0
  lrc := 0#8
  nib := 0#4
  pend := 0#8
  pendValid := false
  last := t
  timeoutMs := 1000#32
  timeoutTicks := if c.usPerTick = 0 then 0 else Machine.timeoutTicks c 1000
  txIndex := 0
  txLrc := 0#8
  txen := false
  buf := b

/-- The master engine after M_RESET at tick `t` (rule R652). -/
def Master.reset (c : Config) (t : Nat) : Master where
  st := .idle
  slave := 0#8
  readAddress := 0#16
  writeAddress := 0#16
  writeCount := 0#16
  stamp := t
  responseTimeoutMs := 200#32
  rtTicks := msToTicks c 200
  turnaroundMs := 1000#32
  taTicks := msToTicks c 1000

/-- The power-on state at launch tick `t0` for the parameters `c` (rule R653): every unit as after its reset command, no
fault, no events (DEDUCED, notes/assumptions/14.md), every `written[i]` false, nothing issued. -/
def State.powerOn (c : Config) (t0 : Nat) : State where
  cfg := c
  rtu := RtuFramer.reset (t0 % tickModulus c) []
  asc := AscFramer.reset c (t0 % tickModulus c) []
  mst := Master.reset c (t0 % tickModulus c)
  fault := none
  events := []
  result := .none
  rtuLine := []
  ascLine := []
  inputs := Inputs.default
  pending := []

/-- The state after reset: power-on with the default parameters at launch tick 0 (DESIGN CHOICE, notes/assumptions/4.md). -/
def State.reset : State := State.powerOn Config.default 0

end Sys2Proof.Machine
end

