-- ==== Sys2Proof/Machine/Ops.lean ====
section
/-! DEFINITION. The named operations over memory and registers: the frame buffer (rules R100 to R110), sequencing and the
raising of a fault (rules R13, R630, R631), events and verdicts (rule R620), the clock and the stream (rules R32, R120 to
R124), and the accessors that make one rule serve both framers. -/

namespace Sys2Proof.Machine

/-! ### The frame buffer -/

/-- The byte at index `i`; none where `written[i]` is false (rule R100). -/
def Memory.read : Memory → Nat → Option Byte
  | [], _ => none
  | (a, v) :: m, i => if i = a then some v else Memory.read m i

/-- `BufWrite(i, v)`: stores the byte and sets `written[i]` (rule R100). -/
def Memory.write : Memory → Nat → Byte → Memory
  | [], i, v => [(i, v)]
  | (a, w) :: m, i, v =>
      if i < a then (i, v) :: (a, w) :: m else if i = a then (a, v) :: m else (a, w) :: Memory.write m i v

/-- The bytes at `i` to `i + vs.length - 1`, written in order. -/
def Memory.writeList : Memory → Nat → List Byte → Memory
  | m, _, [] => m
  | m, i, v :: vs => Memory.writeList (m.write i v) (i + 1) vs

/-- `buf[i..i+n)`; none if some byte of it has never been written. -/
def Memory.readRange (m : Memory) (i : Nat) : Nat → Option (List Byte)
  | 0 => some []
  | n + 1 =>
    match m.read i, Memory.readRange m (i + 1) n with
    | some v, some vs => some (v :: vs)
    | _, _ => none

/-- Every index of the list is above `a`. -/
def Memory.above (a : Nat) : Memory → Bool
  | [] => true
  | (b, _) :: _ => decide (a < b)

/-- The canonical form: indices strictly rising. (An unlisted index reads as no value, so no entry can equal it.) -/
def Memory.wf : Memory → Bool
  | [] => true
  | (a, _) :: m => Memory.above a m && Memory.wf m

/-! ### Sequencing and faults -/

/-- `raise Fault(reason)` (rules R13, R630): the reason is recorded, and the command returns nothing. -/
def State.raise (r : Fault) (s : State) : State := { s with fault := some r, result := .none }

/-- The rest of a command: it runs unless a fault has been raised (rule R630: "The command then stops and writes nothing
further"). -/
def State.andThen (s : State) (f : State → State) : State := if s.fault.isSome then s else f s

/-- A command (rule R630: in the faulted state "every later command has no effect"). A command returns nothing until it
says what. -/
def State.command (s : State) (f : State → State) : State := s.andThen fun s => f { s with result := .none }

/-- `return r`. -/
def State.answer (r : Result) (s : State) : State := { s with result := r }

/-- `return d`, for a ticks result: `W` bits wide (rule R170). A value that does not fit keeps its low `W` bits (DEDUCED,
notes/assumptions/18.md). -/
def State.answerTicks (d : Nat) (s : State) : State := s.answer (.ticks (d % tickModulus s.cfg))

/-! ### Events, verdicts, the clock and the stream -/

/-- `Emit(e)` (rule R620). -/
def State.emit (e : Event) (s : State) : State := { s with events := s.events ++ [e] }

/-- `Verdict(x)`: the host's answer, recorded right after the event it answers (rule R620). -/
def State.drawVerdict (env : Inputs) (s : State) : State := s.emit (.verdict env.verdict)

/-- `Now()` (rules R9, R32). -/
def nowTick (c : Config) (env : Inputs) : Nat := env.now % tickModulus c

/-- `StreamWrite`'s three answers (rule R122). -/
inductive WriteAnswer where
  | accepted | refused | error
  deriving DecidableEq, Repr

/-- The stream's answer to an offer when it accepts `left` more of this command's offers (none: all of them). -/
def streamWrite (env : Inputs) (left : Option Nat) : WriteAnswer :=
  match left with
  | none => .accepted
  | some 0 => if env.txError then .error else .refused
  | some (_ + 1) => .accepted

/-- What is left after an accepted offer. -/
def offersLeft (left : Option Nat) : Option Nat := left.map (· - 1)

/-! ### One rule for both framers -/

/-- `buf` of a framer. -/
def State.buf (s : State) : FramerKind → Memory
  | .rtu => s.rtu.buf
  | .ascii => s.asc.buf

/-- A framer's `buf` replaced. -/
def State.setBuf (s : State) (u : FramerKind) (m : Memory) : State :=
  match u with
  | .rtu => { s with rtu := { s.rtu with buf := m } }
  | .ascii => { s with asc := { s.asc with buf := m } }

/-- `buffer_len` of a framer. -/
def State.bufferLen (s : State) : FramerKind → Nat
  | .rtu => s.rtu.bufferLen
  | .ascii => s.asc.bufferLen

/-- `frame_address` of a framer. -/
def State.frameAddress (s : State) : FramerKind → Byte
  | .rtu => s.rtu.frameAddress
  | .ascii => s.asc.frameAddress

/-- `frame_address <- addr; buffer_len <- n` (rules R108, R410). -/
def State.setFrameFields (s : State) (u : FramerKind) (addr : Byte) (n : Nat) : State :=
  match u with
  | .rtu => { s with rtu := { s.rtu with frameAddress := addr, bufferLen := n } }
  | .ascii => { s with asc := { s.asc with frameAddress := addr, bufferLen := n } }

/-- An ASCII framer needs no configuration (rule R301), an RTU framer a SETUP (rule R37). -/
def State.configured (s : State) : FramerKind → Bool
  | .rtu => s.rtu.configured
  | .ascii => true

/-- `BufWrite(i, v)`; at or past BUFFER_MAX it is not defined and raises `Fault(BUF_INDEX)` (rule R100; by a framer,
DEDUCED, safe: notes/assumptions/16.md). -/
def State.bufWrite (s : State) (u : FramerKind) (i : Nat) (v : Byte) : State :=
  if i < s.cfg.bufferMax then s.setBuf u ((s.buf u).write i v) else s.raise .bufIndex

/-- `BufRead(i)`: the byte, or the fault that reading it raises (rule R100). -/
def State.bufRead (s : State) (u : FramerKind) (i : Nat) : Except Fault Byte :=
  if i < s.cfg.bufferMax then
    match (s.buf u).read i with
    | some v => .ok v
    | none => .error .unwritten
  else .error .bufIndex

/-- `s.emit` of a framer's cause. -/
def State.emitCause (u : FramerKind) (c : Cause) (s : State) : State := s.emit (.cause u c)

end Sys2Proof.Machine
end

