-- ==== Sys2Proof/Machine/Operands.lean ====
section
/-! DEFINITION. The computations on operands: CRC-16 (rule R141), LRC (rule R144), the address filter (rule R222), coil
packing (rule R152), the limits and PDUs of the nine requests (rules R430 to R440), and the decoding of a reply PDU
(rules R460 to R469). -/

namespace Sys2Proof.Machine

/-! ### Checks -/

/-- One turn of the bit loop of rule R141. -/
def crcBit (crc : Word16) : Word16 := if crc.getLsbD 0 then (crc >>> 1) ^^^ 0xA001#16 else crc >>> 1

/-- `crc_update` (rule R141). -/
def crcUpdate (crc : Word16) (b : Byte) : Word16 :=
  crcBit (crcBit (crcBit (crcBit (crcBit (crcBit (crcBit (crcBit (crc ^^^ b.setWidth 16))))))))

/-- `CRC16(s)` (rule R141). -/
def crc16 (s : List Byte) : Word16 := s.foldl crcUpdate 0xFFFF#16

/-- The sum of bytes modulo 256 (rule R144). -/
def byteSum (s : List Byte) : Byte := s.foldl (· + ·) 0#8

/-- `LRC(a, p)` (rule R144). -/
def lrcOf (a : Byte) (p : List Byte) : Byte := 0#8 - byteSum (a :: p)

/-- `addr_ok` (rules R222, R313). -/
def addrOk (station a : Byte) : Bool := station == 0#8 || a == station || a == 0#8

/-! ### Requests -/

/-- The bits of the last of `bc` bytes that carry one of `count` coils (rule R152). -/
def lastCoilMask (count : Nat) : Byte := if count % 8 = 0 then 0xFF#8 else BitVec.ofNat 8 (2 ^ (count % 8) - 1)

/-- `bits'`: the unused high bits of the last byte cleared (rules R152, R436). -/
def clearUnusedBits (count : Nat) : List Byte → List Byte
  | [] => []
  | [b] => [b &&& lastCoilMask count]
  | b :: bs => b :: clearUnusedBits count bs

/-- 0xFF00 for 1, 0x0000 for 0 (rules R153, R434). -/
def coilWord (value : Byte) : Word16 := if value = 0x01#8 then 0xFF00#16 else 0x0000#16

/-- A count operand is within `1 .. limit` (rule R440). -/
def countOk (count : Word16) (limit : Nat) : Bool := decide (1 ≤ count.toNat) && decide (count.toNat ≤ limit)

/-- What a request command hands to the common procedure of rule R410: whether its counts are in their limits (R440), its
PDU, and the context it writes (R412). -/
structure RequestPlan where
  countsOk : Bool
  pdu : List Byte
  readAddress : Word16
  writeAddress : Word16
  writeCount : Word16
  deriving DecidableEq, Repr

/-- Requests 0x01 to 0x04 (rules R430 to R433): `limit` is the count's limit. -/
def planRead (fc : Byte) (limit : Nat) (addr count : Word16) : RequestPlan where
  countsOk := countOk count limit
  pdu := pduWords fc addr count
  readAddress := addr
  writeAddress := 0#16
  writeCount := 0#16

/-- Requests 0x05 and 0x06 (rules R434, R435): the write count of the context is 1. -/
def planWriteSingle (fc : Byte) (addr v : Word16) : RequestPlan where
  countsOk := true
  pdu := pduWords fc addr v
  readAddress := 0#16
  writeAddress := addr
  writeCount := 1#16

/-- Request 0x0F (rule R436). -/
def planWriteCoils (addr count : Word16) (bits : List Byte) : RequestPlan where
  countsOk := countOk count 1968
  pdu := pduWriteCoils addr count (BitVec.ofNat 8 (coilBytes count)) (clearUnusedBits count.toNat bits)
  readAddress := 0#16
  writeAddress := addr
  writeCount := count

/-- Request 0x10 (rule R437). -/
def planWriteRegisters (addr count : Word16) (values : List Word16) : RequestPlan where
  countsOk := countOk count 123
  pdu := pduWriteRegisters addr count (BitVec.ofNat 8 (2 * count.toNat)) values
  readAddress := 0#16
  writeAddress := addr
  writeCount := count

/-- Request 0x17 (rule R438). -/
def planReadWrite (raddr rcount waddr wcount : Word16) (values : List Word16) : RequestPlan where
  countsOk := countOk rcount 125 && countOk wcount 121
  pdu := pduReadWriteRegisters raddr rcount waddr wcount (BitVec.ofNat 8 (2 * wcount.toNat)) values
  readAddress := raddr
  writeAddress := waddr
  writeCount := wcount

/-! ### Replies -/

/-- Byte `k` of a PDU. -/
def pduByte (p : List Byte) (k : Nat) : Byte := p.getD k 0#8

/-- The 16-bit field at offset `k` (rule R153). -/
def pduWord (p : List Byte) (k : Nat) : Word16 := be16 (pduByte p k) (pduByte p (k + 1))

/-- The byte count of a reply of at least two bytes: `L >= 2` and `L = 2 + bc` (rules R461, R462). -/
def countMatches (p : List Byte) : Bool := decide (2 ≤ p.length) && p.length == 2 + (pduByte p 1).toNat

/-- Rule R461: coils and discrete inputs. -/
def decodeBits (m : Master) (p : List Byte) : Option Event :=
  if countMatches p && decide (1 ≤ (pduByte p 1).toNat) then
    some (.responseBits (pduByte p 0) m.readAddress (pduByte p 1).toNat (p.drop 2))
  else none

/-- The byte count of a register reply: at least 2 and even (rules R462, R467). -/
def registerCountOk (p : List Byte) : Bool :=
  countMatches p && decide (2 ≤ (pduByte p 1).toNat) && (pduByte p 1).toNat % 2 == 0

/-- Rule R462: holding and input registers. -/
def decodeRegisters (m : Master) (p : List Byte) : Option Event :=
  if registerCountOk p then
    (wordsOfBytes (p.drop 2)).map fun ws => .responseRegisters (pduByte p 0) m.readAddress ws.length ws
  else none

/-- Rule R464: write single coil. -/
def decodeCoil (p : List Byte) : Option Event :=
  if p.length == 5 && coilValue (pduWord p 3) then some (.responseCoil (pduWord p 1) (pduWord p 3 == 0xFF00#16)) else none

/-- Rule R465: write single register. -/
def decodeRegister (p : List Byte) : Option Event :=
  if p.length == 5 then some (.responseRegister (pduWord p 1) (pduWord p 3)) else none

/-- Rule R466: write multiple coils or registers. -/
def decodeCount (m : Master) (p : List Byte) : Option Event :=
  if p.length == 5 && pduWord p 3 == m.writeCount then
    some (.responseCount (pduByte p 0) (pduWord p 1) (pduWord p 3))
  else none

/-- Rule R467: read/write multiple registers. -/
def decodeReadWrite (m : Master) (p : List Byte) : Option Event :=
  if registerCountOk p then
    (wordsOfBytes (p.drop 2)).map fun ws => .responseReadWrite m.readAddress ws.length ws m.writeAddress m.writeCount
  else none

/-- Rule R468: exception response. -/
def decodeException (p : List Byte) : Option Event :=
  if p.length == 2 then some (.masterException ((pduByte p 0).extractLsb' 0 7) (pduByte p 1)) else none

/-- The dispatch of rule R460 on `fc = p[0]`; none is MALFORMED (rule R469 for every other function code). -/
def decodeReply (m : Master) (p : List Byte) : Option Event :=
  if 128 ≤ (pduByte p 0).toNat then decodeException p
  else if pduByte p 0 = 0x01#8 ∨ pduByte p 0 = 0x02#8 then decodeBits m p
  else if pduByte p 0 = 0x03#8 ∨ pduByte p 0 = 0x04#8 then decodeRegisters m p
  else if pduByte p 0 = 0x05#8 then decodeCoil p
  else if pduByte p 0 = 0x06#8 then decodeRegister p
  else if pduByte p 0 = 0x0F#8 ∨ pduByte p 0 = 0x10#8 then decodeCount m p
  else if pduByte p 0 = 0x17#8 then decodeReadWrite m p
  else none

end Sys2Proof.Machine
end

