-- ==== Sys2Proof/Machine/Flags.lean ====
section
/-! DEFINITION. What is derived from the state registers: the state codes (rules R36, R50, R58), the groups of states, the
owner of each buffer (rule R103) and the status outputs (rule R63). -/

namespace Sys2Proof.Machine

/-! ### State codes -/

/-- The codes of rule R36. -/
def RtuSt.code : RtuSt → Byte
  | .exception => 0#8 | .dump => 1#8 | .idle => 2#8 | .frameReady => 3#8 | .queue => 4#8 | .collision => 5#8
  | .receive => 6#8 | .txAddr => 7#8 | .txPdu => 8#8 | .txCrc => 9#8 | .txDrain => 10#8 | .txWait => 11#8

/-- The codes of rule R50. -/
def AscSt.code : AscSt → Byte
  | .exception => 0#8 | .idle => 1#8 | .frameReady => 2#8 | .queue => 3#8 | .collision => 4#8
  | .rxAddrHigh => 5#8 | .rxAddrLow => 6#8 | .rxPduHigh => 7#8 | .rxPduLow => 8#8 | .rxCr => 9#8
  | .txSof => 10#8 | .txAddrHigh => 11#8 | .txAddrLow => 12#8 | .txPduHigh => 13#8 | .txPduLow => 14#8
  | .txLrcHigh => 15#8 | .txLrcLow => 16#8 | .txCr => 17#8 | .txLf => 18#8 | .txWait => 19#8

/-- The codes of rule R58. -/
def MstSt.code : MstSt → Byte
  | .idle => 0#8 | .waitingForReply => 1#8 | .processingReply => 2#8 | .waitingTurnaroundReply => 3#8
  | .processingError => 4#8

/-! ### Groups of states -/

/-- `tx_addr`, `tx_pdu`, `tx_crc`, `tx_drain`: POLL runs the transmit progress (rule R211). -/
def RtuSt.transmitting : RtuSt → Bool
  | .txAddr | .txPdu | .txCrc | .txDrain => true
  | .exception | .dump | .idle | .frameReady | .queue | .collision | .receive | .txWait => false

/-- The states FINISHED leaves (rule R238). -/
def RtuSt.abandonable : RtuSt → Bool
  | .receive | .frameReady | .collision | .queue => true
  | .exception | .dump | .idle | .txAddr | .txPdu | .txCrc | .txDrain | .txWait => false

/-- `rx_*` (rule R300). -/
def AscSt.receiving : AscSt → Bool
  | .rxAddrHigh | .rxAddrLow | .rxPduHigh | .rxPduLow | .rxCr => true
  | .exception | .idle | .frameReady | .queue | .collision | .txSof | .txAddrHigh | .txAddrLow | .txPduHigh | .txPduLow
  | .txLrcHigh | .txLrcLow | .txCr | .txLf | .txWait => false

/-- `tx_sof` .. `tx_lf` and `tx_wait` (rule R305). -/
def AscSt.transmitting : AscSt → Bool
  | .txSof | .txAddrHigh | .txAddrLow | .txPduHigh | .txPduLow | .txLrcHigh | .txLrcLow | .txCr | .txLf | .txWait => true
  | .exception | .idle | .frameReady | .queue | .collision | .rxAddrHigh | .rxAddrLow | .rxPduHigh | .rxPduLow
  | .rxCr => false

/-- The states FINISHED leaves (rule R324). -/
def AscSt.abandonable : AscSt → Bool
  | .rxAddrHigh | .rxAddrLow | .rxPduHigh | .rxPduLow | .rxCr | .frameReady | .collision | .queue => true
  | .exception | .idle | .txSof | .txAddrHigh | .txAddrLow | .txPduHigh | .txPduLow | .txLrcHigh | .txLrcLow | .txCr
  | .txLf | .txWait => false

/-! ### Ownership of the buffer -/

/-- Who owns a frame buffer (rule R103). -/
inductive Owner where
  | linkLayer | host | nobody
  deriving DecidableEq, Repr

/-- The owner of the RTU framer's buffer (rule R103). -/
def RtuSt.owner : RtuSt → Owner
  | .exception => .nobody
  | .frameReady | .collision | .queue => .host
  | .dump | .idle | .receive | .txAddr | .txPdu | .txCrc | .txDrain | .txWait => .linkLayer

/-- The owner of the ASCII framer's buffer (rule R103). -/
def AscSt.owner : AscSt → Owner
  | .exception => .nobody
  | .frameReady | .collision | .queue => .host
  | .idle | .rxAddrHigh | .rxAddrLow | .rxPduHigh | .rxPduLow | .rxCr | .txSof | .txAddrHigh | .txAddrLow | .txPduHigh
  | .txPduLow | .txLrcHigh | .txLrcLow | .txCr | .txLf | .txWait => .linkLayer

/-- The owner of a framer's buffer. -/
def State.owner (s : State) : FramerKind → Owner
  | .rtu => s.rtu.st.owner
  | .ascii => s.asc.st.owner

/-- The framer is in `queue` (rule R108). -/
def State.inQueue (s : State) : FramerKind → Bool
  | .rtu => s.rtu.st == .queue
  | .ascii => s.asc.st == .queue

/-! ### Status outputs (rule R63): derived from state, with no storage of their own -/

/-- `frame_ready`. -/
def State.frameReadyOut (s : State) : FramerKind → Bool
  | .rtu => s.rtu.st == .frameReady
  | .ascii => s.asc.st == .frameReady

/-- `collision`. -/
def State.collisionOut (s : State) : FramerKind → Bool
  | .rtu => s.rtu.st == .collision
  | .ascii => s.asc.st == .collision

/-- `txen`. -/
def State.txenOut (s : State) : FramerKind → Bool
  | .rtu => s.rtu.txen
  | .ascii => s.asc.txen

/-- `exception`. -/
def State.exceptionOut (s : State) : FramerKind → Bool
  | .rtu => s.rtu.st == .exception
  | .ascii => s.asc.st == .exception

/-- `processing_error`. -/
def State.processingErrorOut (s : State) : Bool := s.mst.st == .processingError

/-- READ_STATUS's record (rule R172). For ASCII, `configured` is always 1. -/
def State.statusRecord (s : State) : FramerKind → StatusRecord
  | .rtu => ⟨s.rtu.st.code, s.rtu.frameAddress, BitVec.ofNat 16 s.rtu.bufferLen, s.rtu.txen, s.rtu.configured⟩
  | .ascii => ⟨s.asc.st.code, s.asc.frameAddress, BitVec.ofNat 16 s.asc.bufferLen, s.asc.txen, true⟩

end Sys2Proof.Machine
end

