-- ==== Sys2Proof/Machine/Transmit.lean ====
section
/-! DEFINITION. The transmit side of both framers: BEGIN_SEND, FINISHED, the transmit progress and SEND
(rules R228 to R238, R320 to R326), as sub-steps that the framers' commands and the master engine share (rule R401). -/

namespace Sys2Proof.Machine

/-! ### BEGIN_SEND and FINISHED -/

/-- BEGIN_SEND succeeds in `idle` and `frame_ready` (rules R228, R320). -/
def State.canBeginSend (s : State) : FramerKind → Bool
  | .rtu => s.rtu.st == .idle || s.rtu.st == .frameReady
  | .ascii => s.asc.st == .idle || s.asc.st == .frameReady

/-- The framer enters `queue`. -/
def State.enterQueue (s : State) : FramerKind → State
  | .rtu => { s with rtu := { s.rtu with st := .queue } }
  | .ascii => { s with asc := { s.asc with st := .queue } }

/-- RTU FINISHED (rule R238). -/
def rtuFinished (s : State) : State :=
  if s.rtu.configured then
    if s.rtu.st.abandonable then { s with rtu := { s.rtu with st := .idle, bufferLen := 0 } } else s
  else s.raise .notConfigured

/-- ASCII FINISHED (rule R324). -/
def ascFinished (s : State) : State :=
  if s.asc.st.abandonable then { s with asc := { s.asc with st := .idle, bufferLen := 0 } } else s

/-- A framer's FINISHED. -/
def framerFinished (u : FramerKind) (s : State) : State :=
  match u with
  | .rtu => rtuFinished s
  | .ascii => ascFinished s

/-! ### RTU transmit progress -/

/-- RTU `write_error()` (rule R234). -/
def rtuWriteError (s : State) : State :=
  State.emitCause .rtu .txTransport { s with rtu := { s.rtu with txen := false, bufferLen := 0, st := .idle } }

/-- The byte to offer in a transmit state (rule R233). -/
def rtuTxByte (s : State) : Except Fault Byte :=
  match s.rtu.st with
  | .txAddr => .ok s.rtu.frameAddress
  | .txPdu => s.bufRead .rtu s.rtu.txIndex
  | .txCrc | .exception | .dump | .idle | .frameReady | .queue | .collision | .receive | .txDrain | .txWait =>
      .ok (if s.rtu.txIndex = 0 then lo8 s.rtu.txCrc else hi8 s.rtu.txCrc)

/-- The registers after the stream has accepted a byte (rule R233). After the CRC `tx_index` is 2, or CAP where its range
`0 .. CAP` (rule R47) ends before 2; nothing reads it there (DEDUCED, unsafe for claims about that value only: notes/assumptions/9.md). -/
def rtuTxAdvance (c : Config) (r : RtuFramer) : RtuFramer :=
  match r.st with
  | .txAddr => { r with st := .txPdu, txIndex := 0 }
  | .txPdu =>
      if r.txIndex + 1 = r.bufferLen then { r with st := .txCrc, txIndex := 0 } else { r with txIndex := r.txIndex + 1 }
  | .txCrc =>
      if r.txIndex + 1 = 2 then { r with st := .txDrain, txIndex := min 2 (cap c) } else { r with txIndex := r.txIndex + 1 }
  | .exception | .dump | .idle | .frameReady | .queue | .collision | .receive | .txDrain | .txWait => r

/-- The stream has accepted byte `b`: it is on the line, and the registers move on. -/
def rtuTxAccepted (b : Byte) (s : State) : State :=
  { s with rtu := rtuTxAdvance s.cfg s.rtu, rtuLine := s.rtuLine ++ [b] }

/-- `tx_addr`, `tx_pdu` and `tx_crc`: a byte is offered (rule R233). -/
def RtuSt.offering : RtuSt → Bool
  | .txAddr | .txPdu | .txCrc => true
  | .exception | .dump | .idle | .frameReady | .queue | .collision | .receive | .txDrain | .txWait => false

/-- The loop of rule R233. `fuel` bounds its turns (DEDUCED, notes/assumptions/8.md); `left` is how many offers the stream still
accepts in this command. -/
def rtuTxLoop (env : Inputs) : Nat → Option Nat → State → State
  | 0, _, s => s
  | fuel + 1, left, s =>
    if s.rtu.st.offering then
      match rtuTxByte s with
      | .error f => s.raise f
      | .ok b =>
        match streamWrite env left with
        | .error => rtuWriteError s
        | .refused => s
        | .accepted => rtuTxLoop env fuel (offersLeft left) (rtuTxAccepted b s)
    else s

/-- `drain_check(now)` (rule R236). -/
def rtuDrainCheck (env : Inputs) (s : State) : State :=
  if env.writeComplete then
    { s with rtu := { s.rtu with txen := false, last := nowTick s.cfg env, st := .txWait } }
  else s

/-- A bound on the turns of the RTU loop: the address, BUFFER_MAX bytes, the CRC (DEDUCED, notes/assumptions/8.md). -/
def rtuTxFuel (c : Config) : Nat := c.bufferMax + 4

/-- `tx_progress(now)` (rule R233). -/
def rtuTxProgress (env : Inputs) (s : State) : State :=
  (rtuTxLoop env (rtuTxFuel s.cfg) env.txAccept s).andThen fun s =>
    if s.rtu.st = .txDrain then rtuDrainCheck env s else s

/-! ### ASCII transmit progress -/

/-- ASCII `write_error()` (rule R325). -/
def ascWriteError (s : State) : State :=
  State.emitCause .ascii .txTransport { s with asc := { s.asc with txen := false, bufferLen := 0, st := .idle } }

/-- The character to offer in a transmit state (rule R323). -/
def ascTxChar (s : State) : Except Fault Byte :=
  match s.asc.st with
  | .txSof => .ok chColon
  | .txAddrHigh => .ok (hexchar (highNibble s.asc.frameAddress))
  | .txAddrLow => .ok (hexchar (lowNibble s.asc.frameAddress))
  | .txPduHigh => (s.bufRead .ascii s.asc.txIndex).map fun v => hexchar (highNibble v)
  | .txPduLow => (s.bufRead .ascii s.asc.txIndex).map fun v => hexchar (lowNibble v)
  | .txLrcHigh => .ok (hexchar (highNibble s.asc.txLrc))
  | .txLrcLow => .ok (hexchar (lowNibble s.asc.txLrc))
  | .txCr => .ok chCr
  | .txLf | .exception | .idle | .frameReady | .queue | .collision | .rxAddrHigh | .rxAddrLow | .rxPduHigh | .rxPduLow
  | .rxCr | .txWait => .ok chLf

/-- The registers after the stream has accepted a character (rule R323). -/
def ascTxAdvance (a : AscFramer) : AscFramer :=
  match a.st with
  | .txSof => { a with st := .txAddrHigh }
  | .txAddrHigh => { a with st := .txAddrLow }
  | .txAddrLow => { a with st := .txPduHigh }
  | .txPduHigh => { a with st := .txPduLow }
  | .txPduLow =>
      { a with txIndex := a.txIndex + 1, st := if a.txIndex + 1 = a.bufferLen then .txLrcHigh else .txPduHigh }
  | .txLrcHigh => { a with st := .txLrcLow }
  | .txLrcLow => { a with st := .txCr }
  | .txCr => { a with st := .txLf }
  | .txLf => { a with st := .txWait }
  | .exception | .idle | .frameReady | .queue | .collision | .rxAddrHigh | .rxAddrLow | .rxPduHigh | .rxPduLow | .rxCr
  | .txWait => a

/-- The stream has accepted character `c`. -/
def ascTxAccepted (c : Byte) (s : State) : State :=
  { s with asc := ascTxAdvance s.asc, ascLine := s.ascLine ++ [c] }

/-- `tx_sof` .. `tx_lf`: a character is offered (rule R323). -/
def AscSt.offering : AscSt → Bool
  | .txSof | .txAddrHigh | .txAddrLow | .txPduHigh | .txPduLow | .txLrcHigh | .txLrcLow | .txCr | .txLf => true
  | .exception | .idle | .frameReady | .queue | .collision | .rxAddrHigh | .rxAddrLow | .rxPduHigh | .rxPduLow | .rxCr
  | .txWait => false

/-- The loop of rule R323, bounded by `fuel` (DEDUCED, notes/assumptions/8.md). -/
def ascTxLoop (env : Inputs) : Nat → Option Nat → State → State
  | 0, _, s => s
  | fuel + 1, left, s =>
    if s.asc.st.offering then
      match ascTxChar s with
      | .error f => s.raise f
      | .ok c =>
        match streamWrite env left with
        | .error => ascWriteError s
        | .refused => s
        | .accepted => ascTxLoop env fuel (offersLeft left) (ascTxAccepted c s)
    else s

/-- `drain_check(now)` (rule R326). -/
def ascDrainCheck (env : Inputs) (s : State) : State :=
  if env.writeComplete then
    { s with asc := { s.asc with txen := false, last := nowTick s.cfg env, bufferLen := 0, st := .idle } }
  else s

/-- A bound on the turns of the ASCII loop: `:`, the address, BUFFER_MAX bytes, the LRC, CR, LF
(DEDUCED, notes/assumptions/8.md). -/
def ascTxFuel (c : Config) : Nat := 2 * c.bufferMax + 8

/-- `tx_progress(now)` (rule R323). -/
def ascTxProgress (env : Inputs) (s : State) : State :=
  (ascTxLoop env (ascTxFuel s.cfg) env.txAccept s).andThen fun s =>
    if s.asc.st = .txWait then ascDrainCheck env s else s

/-! ### SEND -/

/-- SEND is refused unless the framer is in `queue` with a PDU of at least one byte (rules R230, R321). -/
def State.canSend (s : State) (u : FramerKind) : Bool := s.inQueue u && s.bufferLen u != 0

/-- SEND's registers before the first offer (rule R230). -/
def rtuStartSend (p : List Byte) (s : State) : State :=
  { s with rtu := { s.rtu with txCrc := crc16 (s.rtu.frameAddress :: p), txIndex := 0, txen := true, st := .txAddr } }

/-- SEND's registers before the first offer (rule R321). -/
def ascStartSend (p : List Byte) (s : State) : State :=
  { s with asc := { s.asc with txLrc := lrcOf s.asc.frameAddress p, txIndex := 0, txen := true, st := .txSof } }

/-- A framer's SEND where `canSend` holds (rules R230, R321): a byte of the PDU that nothing has written faults. -/
def framerTransmit (env : Inputs) (u : FramerKind) (s : State) : State :=
  match (s.buf u).readRange 0 (s.bufferLen u) with
  | none => s.raise .unwritten
  | some p =>
    match u with
    | .rtu => rtuTxProgress env (rtuStartSend p s)
    | .ascii => ascTxProgress env (ascStartSend p s)

end Sys2Proof.Machine
end

