-- ==== Sys2Proof/Machine/Replies.lean ====
section
/-! DEFINITION. The master engine's receive side: the frame-ready step (rules R450 to R455) and the timers of M_POLL
(rule R470), as sub-steps. -/

namespace Sys2Proof.Machine

/-- `mst.st <- v`. -/
def State.setMstSt (v : MstSt) (s : State) : State := { s with mst := { s.mst with st := v } }

/-- The state after a verdict (rules R454, R470). -/
def verdictSt (env : Inputs) : MstSt := if env.verdict then .idle else .processingError

/-- `deliver(r)` (rule R454). -/
def deliver (u : FramerKind) (env : Inputs) (r : Event) (s : State) : State :=
  (framerFinished u ((s.emit r).drawVerdict env)).andThen (State.setMstSt (verdictSt env))

/-- `malformed()` (rule R455). -/
def rejectReply (u : FramerKind) (s : State) : State :=
  (framerFinished u (s.emit .malformed)).andThen (State.setMstSt .processingError)

/-- Decoding and delivering the reply in `buf[0..L)` (rule R450). -/
def processReply (u : FramerKind) (env : Inputs) (s : State) : State :=
  match (s.buf u).readRange 0 (s.bufferLen u) with
  | none => s.raise .unwritten
  | some p =>
    match decodeReply s.mst p with
    | some r => deliver u env r s
    | none => rejectReply u s

/-- The frame-ready step (rule R450): nobody waiting (R451), the wrong sender (R452), or a reply. -/
def frameReadyStep (u : FramerKind) (env : Inputs) (s : State) : State :=
  if s.bufferLen u = 0 ∨ s.mst.st ≠ .waitingForReply then framerFinished u (s.emit .unsolicited)
  else if s.frameAddress u ≠ s.mst.slave then
    framerFinished u { s.emit .stale with mst := { s.mst with stamp := nowTick s.cfg env } }
  else processReply u env (s.setMstSt .processingReply)

/-- "if a master engine is bound to this framer: run 43_master_responses.md rule R450 now" (rules R221, R224, R306, R312). -/
def notifyMaster (u : FramerKind) (env : Inputs) (s : State) : State :=
  if s.cfg.master = some u then frameReadyStep u env s else s

/-- M_POLL (rule R470). In `processing_reply`, which no run shows it, it does nothing (DEDUCED, safe:
notes/assumptions/17.md). -/
def masterPoll (env : Inputs) (s : State) : State :=
  let e := tickDiff s.cfg (nowTick s.cfg env) s.mst.stamp
  match s.mst.st with
  | .waitingForReply =>
      if s.mst.rtTicks < e then
        State.answerTicks 0 (State.setMstSt (verdictSt env) ((s.emit .timeout).drawVerdict env))
      else State.answerTicks (s.mst.rtTicks - e + 1) s
  | .waitingTurnaroundReply =>
      if s.mst.taTicks ≤ e then State.answerTicks 0 (State.setMstSt .idle (s.emit .turnaroundDone))
      else State.answerTicks (s.mst.taTicks - e) s
  | .idle | .processingError | .processingReply => State.answerTicks 0 s

end Sys2Proof.Machine
end

