-- ==== Sys2Proof/Machine/Receive.lean ====
section
/-! DEFINITION. The receive side and the POLL of both framers (rules R209 to R227, R240, R304 to R317), and the arrival of
a whole frame on a framer's line (DESIGN CHOICE, notes/assumptions/2.md). -/

namespace Sys2Proof.Machine

/-! ### RTU -/

/-- `e = now -_W rtu.last` (rule R209). -/
def rtuElapsed (env : Inputs) (s : State) : Nat := tickDiff s.cfg (nowTick s.cfg env) s.rtu.last

/-- `e >= t`; a threshold that holds no value is never reached (rule R38: it is not read before SETUP; DEDUCED, safe:
notes/assumptions/12.md). -/
def reached (t : Option Nat) (e : Nat) : Bool :=
  match t with
  | some t => decide (t ≤ e)
  | none => false

/-- `gap > t`; a threshold that holds no value is never exceeded (rule R38). -/
def exceeded (t : Option Nat) (gap : Nat) : Bool :=
  match t with
  | some t => decide (t < gap)
  | none => false

/-- The rejection of a frame (rule R221). -/
def rtuReject (c : Cause) (s : State) : State :=
  { s.emitCause .rtu c with rtu := { s.rtu with st := .idle, bufferLen := 0 } }

/-- `frame_end()` (rules R220, R221): length, CRC residue, address. -/
def rtuFrameEnd (env : Inputs) (s : State) : State :=
  if s.rtu.rxCount < 3 + s.cfg.minPdu then rtuReject .short s
  else if s.rtu.crc ≠ 0x0000#16 then rtuReject .crc s
  else if addrOk s.rtu.stationAddress s.rtu.frameAddress then
    notifyMaster .rtu env ({ s with rtu := { s.rtu with st := .frameReady } }.emit (.frameReady .rtu))
  else rtuReject .address s

/-- `poll_timers(now)` (rule R212). -/
def rtuPollTimers (env : Inputs) (s : State) : State :=
  if reached s.rtu.t35 (rtuElapsed env s) then
    match s.rtu.st with
    | .receive => rtuFrameEnd env s
    | .dump => { s with rtu := { s.rtu with st := .idle } }
    | .collision => notifyMaster .rtu env { s with rtu := { s.rtu with st := .frameReady } }
    | .txWait => { s with rtu := { s.rtu with st := .idle, bufferLen := 0 } }
    | .exception | .idle | .frameReady | .queue | .txAddr | .txPdu | .txCrc | .txDrain => s
  else s

/-- A byte in `idle` starts a frame (rule R216). -/
def rtuStartFrame (b : Byte) (s : State) : State :=
  { s with rtu := { s.rtu with frameAddress := b, crc := crcUpdate 0xFFFF#16 b, rxCount := 1, holdN := 0, bufferLen := 0,
                               st := .receive } }

/-- To `dump` with a cause (rules R217, R227). -/
def rtuDump (c : Cause) (s : State) : State :=
  { s with rtu := { s.rtu with st := .dump, bufferLen := 0 } }.emitCause .rtu c

/-- The CRC and the count after an accepted byte (rules R210, R217). -/
def rtuCountByte (b : Byte) (s : State) : State :=
  { s with rtu := { s.rtu with crc := crcUpdate s.rtu.crc b, rxCount := s.rtu.rxCount + 1 } }

/-- A byte leaves the delay line for `buf`, and `b` enters it (rule R217). -/
def rtuCommit (b : Byte) (s : State) : State :=
  (s.bufWrite .rtu s.rtu.bufferLen s.rtu.hold0).andThen fun s =>
    rtuCountByte b
      { s with rtu := { s.rtu with bufferLen := s.rtu.bufferLen + 1, hold0 := s.rtu.hold1, hold1 := b } }

/-- A byte in `receive` (rule R217). -/
def rtuReceiveByte (b : Byte) (gap : Nat) (s : State) : State :=
  if exceeded s.rtu.t15 gap then rtuDump .interchar s
  else if s.rtu.holdN = 2 then
    if s.rtu.bufferLen = cap s.cfg then rtuDump .overflow s else rtuCommit b s
  else if s.rtu.holdN = 1 then rtuCountByte b { s with rtu := { s.rtu with hold1 := b, holdN := 2 } }
  else rtuCountByte b { s with rtu := { s.rtu with hold0 := b, holdN := 1 } }

/-- `on_byte(b, now)` (rules R214 to R219). -/
def rtuOnByte (env : Inputs) (b : Byte) (s0 : State) : State :=
  let gap := rtuElapsed env s0
  let s := { s0 with rtu := { s0.rtu with last := nowTick s0.cfg env } }
  match s.rtu.st with
  | .idle => rtuStartFrame b s
  | .receive => rtuReceiveByte b gap s
  | .frameReady => { s with rtu := { s.rtu with st := .collision } }.emitCause .rtu .collision
  | .dump | .collision | .queue | .txAddr | .txPdu | .txCrc | .txDrain | .txWait | .exception => s

/-- `read_error(now)` (rule R240). -/
def rtuReadError (env : Inputs) (s0 : State) : State :=
  let s := s0.emitCause .rtu .rxTransport
  match s.rtu.st with
  | .idle | .receive | .dump =>
      { s with rtu := { s.rtu with st := .dump, bufferLen := 0, last := nowTick s.cfg env } }
  | .exception | .frameReady | .queue | .collision | .txAddr | .txPdu | .txCrc | .txDrain | .txWait => s

/-- The receive drain (rules R211, R213): each byte the stream returns, then NONE or ERROR. -/
def rtuDrain (env : Inputs) : List Byte → State → State
  | [], s => if env.rxError then rtuReadError env s else s
  | b :: bs, s => (rtuOnByte env b s).andThen (rtuDrain env bs)

/-- A deadline that holds a value, less the elapsed time. -/
def ticksUntil (t : Option Nat) (e : Nat) : Nat := t.getD 0 - e

/-- `poll_deadline(now)` (rule R226). -/
def rtuDeadline (env : Inputs) (s : State) : Nat :=
  let e := rtuElapsed env s
  match s.rtu.st with
  | .receive => if e < s.rtu.t15.getD 0 then ticksUntil s.rtu.t15 e else ticksUntil s.rtu.t35 e
  | .dump | .collision | .txWait => ticksUntil s.rtu.t35 e
  | .txAddr | .txPdu | .txCrc | .txDrain => 1
  | .idle | .frameReady | .queue | .exception => 0

/-- Transmit progress where the framer transmits (rule R211). -/
def rtuTransmitPhase (env : Inputs) (s : State) : State := if s.rtu.st.transmitting then rtuTxProgress env s else s

/-- POLL to an RTU framer (rule R211): timers, receive drain, transmit progress, deadline. -/
def rtuPoll (env : Inputs) (s : State) : State :=
  if s.rtu.configured then
    if s.rtu.st = .exception then s.answer (.ticks 0)
    else
      (rtuPollTimers env s).andThen fun s =>
        (rtuDrain env env.rx s).andThen fun s =>
          (rtuTransmitPhase env s).andThen fun s => s.answer (.ticks (rtuDeadline env s))
  else s.raise .notConfigured

/-! ### ASCII -/

/-- `e = now -_W asc.last` (rule R304). -/
def ascElapsed (env : Inputs) (s : State) : Nat := tickDiff s.cfg (nowTick s.cfg env) s.asc.last

/-- A frame is abandoned with a cause (rules R306, R311, R312, R315). -/
def ascDiscard (c : Cause) (s : State) : State :=
  { s with asc := { s.asc with st := .idle, bufferLen := 0 } }.emitCause .ascii c

/-- `poll_timers(now)` (rule R306). -/
def ascPollTimers (env : Inputs) (s : State) : State :=
  if s.asc.timeoutTicks ≤ ascElapsed env s then
    if s.asc.st.receiving then ascDiscard .asciiTimeout s
    else if s.asc.st = .collision then notifyMaster .ascii env { s with asc := { s.asc with st := .frameReady } }
    else s
  else s

/-- A frame starts at `:` (rules R309, R311). -/
def ascStartFrame (s : State) : State :=
  { s with asc := { s.asc with lrc := 0#8, bufferLen := 0, pendValid := false, st := .rxAddrHigh } }

/-- `frame_end()` (rule R312): length, LRC, address. -/
def ascFrameEnd (env : Inputs) (s : State) : State :=
  if s.asc.pendValid = false ∨ s.asc.bufferLen < s.cfg.minPdu then ascDiscard .short s
  else if 0#8 - s.asc.lrc ≠ s.asc.pend then ascDiscard .lrc s
  else if addrOk s.asc.stationAddress s.asc.frameAddress then
    notifyMaster .ascii env ({ s with asc := { s.asc with st := .frameReady } }.emit (.frameReady .ascii))
  else ascDiscard .address s

/-- A decoded byte becomes the pending one (rule R310). -/
def ascPend (v : Byte) (s : State) : State :=
  { s with asc := { s.asc with pend := v, pendValid := true, st := .rxPduHigh } }

/-- A decoded PDU byte `v` (rules R310, R315): the pending byte goes to `buf` and to the sum. -/
def ascDecodedByte (v : Byte) (s : State) : State :=
  if s.asc.pendValid then
    if s.asc.bufferLen = cap s.cfg then ascDiscard .overflow s
    else
      (s.bufWrite .ascii s.asc.bufferLen s.asc.pend).andThen fun s =>
        ascPend v { s with asc := { s.asc with bufferLen := s.asc.bufferLen + 1, lrc := s.asc.lrc + s.asc.pend } }
  else ascPend v s

/-- The address is decoded (rule R310). -/
def ascAddress (a : Byte) (s : State) : State :=
  { s with asc := { s.asc with frameAddress := a, lrc := s.asc.lrc + a, st := .rxPduHigh } }

/-- A character other than `:` in a receive state (rules R310, R311). -/
def ascReceiveChar (env : Inputs) (c : Byte) (s : State) : State :=
  match s.asc.st, hexval c with
  | .rxAddrHigh, some h => { s with asc := { s.asc with nib := h, st := .rxAddrLow } }
  | .rxAddrLow, some h => ascAddress (byteOfNibbles s.asc.nib h) s
  | .rxPduHigh, some h => { s with asc := { s.asc with nib := h, st := .rxPduLow } }
  | .rxPduLow, some h => ascDecodedByte (byteOfNibbles s.asc.nib h) s
  | .rxPduHigh, none => if c = chCr then { s with asc := { s.asc with st := .rxCr } } else ascDiscard .hex s
  | .rxCr, _ => if c = chLf then ascFrameEnd env s else ascDiscard .hex s
  | _, _ => ascDiscard .hex s

/-- `on_char(c, now)` (rules R307 to R314). -/
def ascOnChar (env : Inputs) (c : Byte) (s0 : State) : State :=
  let s := { s0 with asc := { s0.asc with last := nowTick s0.cfg env } }
  match s.asc.st with
  | .idle => if c = chColon then ascStartFrame s else s
  | .rxAddrHigh | .rxAddrLow | .rxPduHigh | .rxPduLow | .rxCr =>
      if c = chColon then ascStartFrame (s.emitCause .ascii .sof) else ascReceiveChar env c s
  | .frameReady => { s with asc := { s.asc with st := .collision } }.emitCause .ascii .collision
  | .collision | .queue | .txSof | .txAddrHigh | .txAddrLow | .txPduHigh | .txPduLow | .txLrcHigh | .txLrcLow | .txCr
  | .txLf | .txWait | .exception => s

/-- `read_error()` (rule R317). -/
def ascReadError (s0 : State) : State :=
  let s := s0.emitCause .ascii .rxTransport
  if s.asc.st.receiving then { s with asc := { s.asc with st := .idle, bufferLen := 0 } } else s

/-- The receive drain (rule R305). -/
def ascDrain (env : Inputs) : List Byte → State → State
  | [], s => if env.rxError then ascReadError s else s
  | c :: cs, s => (ascOnChar env c s).andThen (ascDrain env cs)

/-- `poll_deadline(now)` (rule R316). -/
def ascDeadline (env : Inputs) (s : State) : Nat :=
  match s.asc.st with
  | .rxAddrHigh | .rxAddrLow | .rxPduHigh | .rxPduLow | .rxCr | .collision => s.asc.timeoutTicks - ascElapsed env s
  | .txSof | .txAddrHigh | .txAddrLow | .txPduHigh | .txPduLow | .txLrcHigh | .txLrcLow | .txCr | .txLf | .txWait => 1
  | .idle | .frameReady | .queue | .exception => 0

/-- Transmit progress where the framer transmits (rule R305). -/
def ascTransmitPhase (env : Inputs) (s : State) : State := if s.asc.st.transmitting then ascTxProgress env s else s

/-- POLL to an ASCII framer (rule R305). -/
def ascPoll (env : Inputs) (s : State) : State :=
  if s.asc.st = .exception then s.answer (.ticks 0)
  else
    (ascPollTimers env s).andThen fun s =>
      (ascDrain env env.rx s).andThen fun s =>
        (ascTransmitPhase env s).andThen fun s => s.answer (.ticks (ascDeadline env s))

/-! ### A whole frame on the line (DESIGN CHOICE, notes/assumptions/2.md) -/

/-- The inputs of the POLL that reads `bytes`. -/
def Inputs.reading (env : Inputs) (bytes : List Byte) : Inputs := { env with rx := bytes, rxError := false }

/-- The inputs of the POLL after T3.5 of silence. -/
def Inputs.afterSilence (env : Inputs) (t35 : Nat) : Inputs := { env with now := env.now + t35, rx := [], rxError := false }

/-- `bytes` and then T3.5 of silence on the RTU framer's line: the POLL that reads them and the POLL at which the silence
has elapsed (rules R140, R213, R220; 95_test_vectors.md V1). -/
def rtuLineFrame (env : Inputs) (bytes : List Byte) (s : State) : State :=
  (rtuPoll (env.reading bytes) s).andThen fun s => rtuPoll (env.afterSilence (s.rtu.t35.getD 0)) s

/-- `chars` on the ASCII framer's line: the POLL that reads them (rules R143, R305; 95_test_vectors.md V4). -/
def ascLineFrame (env : Inputs) (chars : List Byte) (s : State) : State := ascPoll (env.reading chars) s

/-- The ADU of an RTU frame with its CRC (rule R140). -/
def rtuAduOf (a : Byte) (p : List Byte) : List Byte :=
  rtuAduBytes a p (lo8 (crc16 (a :: p))) (hi8 (crc16 (a :: p)))

/-- The ADU of an ASCII frame with its LRC (rule R143). -/
def asciiAduOf (a : Byte) (p : List Byte) : List Byte := asciiAduChars a p (lrcOf a p)

/-- A reply PDU reaches the master engine: a frame from station `env.address` that carries it, with the right check,
arrives on the line of the bound framer (rules R450, R460). Without a master engine nothing decodes it (rule R631). -/
def replyArrives (env : Inputs) (p : List Byte) (s : State) : State :=
  match s.cfg.master with
  | none => s.raise .badCommand
  | some .rtu => rtuLineFrame env (rtuAduOf env.address p) s
  | some .ascii => ascLineFrame env (asciiAduOf env.address p) s

end Sys2Proof.Machine
end

