-- ==== Sys2Proof/Machine/AsciiFramer.lean ====
section
/-! DEFINITION. The meanings of the commands to the ASCII framer (rules R302 to R327, R651). -/

namespace Sys2Proof.Machine

/-- ASCII.RESET (rule R651). The buffer and its `written` flags are not changed. -/
def execAscReset (s : State) : Host.Outcome State Fault Refusal :=
  .next (s.command fun s =>
    let t := { s with asc := AscFramer.reset s.cfg (nowTick s.cfg s.inputs) s.asc.buf }
    if s.cfg.usPerTick = 0 then t.emitCause .ascii .config else t)

/-- ASCII.SET_TIMEOUT (rule R302). -/
def execAscSetTimeout (ms : Word32) (s : State) : Host.Outcome State Fault Refusal :=
  .next (s.command fun s =>
    if s.cfg.usPerTick = 0 then
      State.answer (.bool false)
        ({ s with asc := { s.asc with st := .exception, bufferLen := 0, txen := false } }.emitCause .ascii .config)
    else
      let a := { s.asc with timeoutMs := ms, timeoutTicks := timeoutTicks s.cfg ms.toNat }
      State.answer (.bool true)
        { s with asc := if a.st = .exception then { a with st := .idle, bufferLen := 0, last := nowTick s.cfg s.inputs }
                        else a })

/-- ASCII.SET_STATION_ADDRESS (rule R303). -/
def execAscSetStationAddress (addr : Byte) (s : State) : Host.Outcome State Fault Refusal :=
  .next (s.command fun s => { s with asc := { s.asc with stationAddress := addr } })

/-- ASCII.POLL (rule R305). -/
def execAscPoll (s : State) : Host.Outcome State Fault Refusal := .next (s.command (ascPoll s.inputs))

/-- ASCII.BEGIN_SEND (rule R320). -/
def execAscBeginSend (s : State) : Host.Outcome State Fault Refusal :=
  .next (s.command fun s =>
    if s.canBeginSend .ascii then State.answer (.bool true) (s.enterQueue .ascii) else s.answer (.bool false))

/-- ASCII.SEND (rule R321). -/
def execAscSend (s : State) : Host.Outcome State Fault Refusal :=
  .next (s.command fun s =>
    if s.canSend .ascii then (framerTransmit s.inputs .ascii s).andThen (State.answer (.bool true))
    else s.answer (.bool false))

/-- ASCII.FINISHED (rule R324). -/
def execAscFinished (s : State) : Host.Outcome State Fault Refusal := .next (s.command ascFinished)

end Sys2Proof.Machine
end

