-- ==== Sys2Proof/Machine/Buffer.lean ====
section
/-! DEFINITION. The meanings of the commands that go to either framer: BUF_READ, BUF_WRITE, SET_FRAME and READ_STATUS
(rules R106 to R108, R172). -/

namespace Sys2Proof.Machine

/-- The checks that BUF_READ and BUF_WRITE make before an access, in the order of rule R606 (b). -/
def hostAccess (u : FramerKind) (access : State → State) (s : State) : State :=
  if s.configured u = false then s.raise .notConfigured
  else if s.owner u ≠ .host then s.raise .ownership
  else access s

/-- BUF_READ (rule R106). -/
def execBufRead (u : FramerKind) (i : Word16) (s : State) : Host.Outcome State Fault Refusal :=
  .next (s.command (hostAccess u fun s =>
    match s.bufRead u i.toNat with
    | .ok v => s.answer (.byte v)
    | .error f => s.raise f))

/-- BUF_WRITE (rule R107). -/
def execBufWrite (u : FramerKind) (i : Word16) (v : Byte) (s : State) : Host.Outcome State Fault Refusal :=
  .next (s.command (hostAccess u fun s => s.bufWrite u i.toNat v))

/-- SET_FRAME (rule R108). -/
def execSetFrame (u : FramerKind) (addr : Byte) (n : Word16) (s : State) : Host.Outcome State Fault Refusal :=
  .next (s.command fun s =>
    if s.configured u = false then s.raise .notConfigured
    else if s.inQueue u = false then s.raise .ownership
    else if cap s.cfg < n.toNat then s.raise .length
    else s.setFrameFields u addr n.toNat)

/-- READ_STATUS (rule R172). -/
def execReadStatus (u : FramerKind) (s : State) : Host.Outcome State Fault Refusal :=
  .next (s.command fun s => s.answer (.status (s.statusRecord u)))

end Sys2Proof.Machine
end

