-- ==== Sys2Proof/Machine/MasterControl.lean ====
section
/-! DEFINITION. The meanings of the master engine's configuration, timer and status commands (rules R420, R421, R470, R474,
R184, R652). -/

namespace Sys2Proof.Machine

/-- A master command where the block has no master engine is `Fault(BAD_COMMAND)` (rule R631). -/
def State.masterCommand (s : State) (f : State → State) : State :=
  s.command fun s => if s.cfg.master.isSome then f s else s.raise .badCommand

/-- M_RESET (rule R652). -/
def execMReset (s : State) : Host.Outcome State Fault Refusal :=
  .next (s.masterCommand fun s => { s with mst := Master.reset s.cfg (nowTick s.cfg s.inputs) })

/-- M_SET_RESPONSE_TIMEOUT (rule R420). -/
def execMSetResponseTimeout (ms : Word32) (s : State) : Host.Outcome State Fault Refusal :=
  .next (s.masterCommand fun s =>
    { s with mst := { s.mst with responseTimeoutMs := ms, rtTicks := msToTicks s.cfg ms.toNat } })

/-- M_SET_TURNAROUND (rule R421). -/
def execMSetTurnaround (ms : Word32) (s : State) : Host.Outcome State Fault Refusal :=
  .next (s.masterCommand fun s =>
    { s with mst := { s.mst with turnaroundMs := ms, taTicks := msToTicks s.cfg ms.toNat } })

/-- M_POLL (rule R470). -/
def execMPoll (s : State) : Host.Outcome State Fault Refusal := .next (s.masterCommand (masterPoll s.inputs))

/-- M_ACK_ERROR (rule R474). -/
def execMAckError (s : State) : Host.Outcome State Fault Refusal :=
  .next (s.masterCommand fun s =>
    if s.mst.st = .processingError then State.answer (.bool true) ((s.setMstSt .idle).emit .ack)
    else s.answer (.bool false))

/-- M_READ_STATUS (rule R184). -/
def execMReadStatus (s : State) : Host.Outcome State Fault Refusal :=
  .next (s.masterCommand fun s => s.answer (.masterStatus s.mst.st.code s.mst.slave))

end Sys2Proof.Machine
end

