-- ==== Sys2Proof/Machine/MasterRequests.lean ====
section
/-! DEFINITION. The common request procedure (rules R410 to R414) and the meanings of the nine request commands
(rules R430 to R438) and of the nine request PDUs (rule R148; DESIGN CHOICE, notes/assumptions/2.md). -/

namespace Sys2Proof.Machine

/-- The state after a request to `slave` (rule R413). -/
def requestedSt (slave : Byte) : MstSt := if slave = 0#8 then .waitingTurnaroundReply else .waitingForReply

/-- The context of a request (rule R412). -/
def State.setContext (slave : Byte) (p : RequestPlan) (s : State) : State :=
  { s with mst := { s.mst with slave := slave, readAddress := p.readAddress, writeAddress := p.writeAddress,
                               writeCount := p.writeCount } }

/-- `BufWrite(i, pdu[i])` for every `i`, `buffer_len <- len(pdu)`, `frame_address <- slave` (rule R410). -/
def State.loadPdu (u : FramerKind) (slave : Byte) (pdu : List Byte) (s : State) : State :=
  (s.setBuf u ((s.buf u).writeList 0 pdu)).setFrameFields u slave pdu.length

/-- A request that passed every check, from BEGIN_SEND's `queue` on (rule R410). -/
def sendRequest (env : Inputs) (u : FramerKind) (slave : Byte) (p : RequestPlan) (s : State) : State :=
  (framerTransmit env u (State.setContext slave p (State.loadPdu u slave p.pdu (s.enterQueue u)))).andThen fun s =>
    State.answer (.bool true)
      { s with mst := { s.mst with stamp := nowTick s.cfg env, st := requestedSt slave } }

/-- The common request procedure (rule R410), with the checks in the order of rule R411. Its BEGIN_SEND faults on an RTU
framer that has had no SETUP (rule R401). -/
def masterRequest (env : Inputs) (slave : Byte) (p : RequestPlan) (s : State) : State :=
  match s.cfg.master with
  | none => s.raise .badCommand
  | some u =>
    if s.mst.st ≠ .idle then s.answer (.bool false)
    else if p.countsOk = false then s.answer (.bool false)
    else if cap s.cfg < p.pdu.length then s.answer (.bool false)
    else if s.configured u = false then s.raise .notConfigured
    else if s.canBeginSend u = false then s.answer (.bool false)
    else sendRequest env u slave p s

/-- A request command. -/
def requestCommand (slave : Byte) (p : RequestPlan) (s : State) : Host.Outcome State Fault Refusal :=
  .next (s.command fun s => masterRequest s.inputs slave p s)

/-- A request whose operands the decoder gives a meaning only if `ok` (rule R631). -/
def checkedRequest (ok : Bool) (slave : Byte) (p : RequestPlan) (s : State) : Host.Outcome State Fault Refusal :=
  .next (s.command fun s => if ok then masterRequest s.inputs slave p s else s.raise .badCommand)

/-! ### The request commands -/

/-- READ_COILS (rule R430). -/
def execReadCoils (slave : Byte) (addr count : Word16) (s : State) : Host.Outcome State Fault Refusal :=
  requestCommand slave (planRead 0x01#8 2000 addr count) s

/-- READ_DISCRETE_INPUTS (rule R431). -/
def execReadDiscreteInputs (slave : Byte) (addr count : Word16) (s : State) : Host.Outcome State Fault Refusal :=
  requestCommand slave (planRead 0x02#8 2000 addr count) s

/-- READ_HOLDING_REGISTERS (rule R432). -/
def execReadHoldingRegisters (slave : Byte) (addr count : Word16) (s : State) : Host.Outcome State Fault Refusal :=
  requestCommand slave (planRead 0x03#8 125 addr count) s

/-- READ_INPUT_REGISTERS (rule R433). -/
def execReadInputRegisters (slave : Byte) (addr count : Word16) (s : State) : Host.Outcome State Fault Refusal :=
  requestCommand slave (planRead 0x04#8 125 addr count) s

/-- WRITE_SINGLE_COIL (rule R434). -/
def execWriteSingleCoil (slave : Byte) (addr : Word16) (value : Byte) (s : State) : Host.Outcome State Fault Refusal :=
  checkedRequest (value == 0x00#8 || value == 0x01#8) slave (planWriteSingle 0x05#8 addr (coilWord value)) s

/-- WRITE_SINGLE_REGISTER (rule R435). -/
def execWriteSingleRegister (slave : Byte) (addr value : Word16) (s : State) : Host.Outcome State Fault Refusal :=
  requestCommand slave (planWriteSingle 0x06#8 addr value) s

/-- WRITE_MULTIPLE_COILS (rule R436). -/
def execWriteMultipleCoils (slave : Byte) (addr count : Word16) (bits : List Byte) (s : State) :
    Host.Outcome State Fault Refusal :=
  checkedRequest (bits.length == coilBytes count) slave (planWriteCoils addr count bits) s

/-- WRITE_MULTIPLE_REGISTERS (rule R437). -/
def execWriteMultipleRegisters (slave : Byte) (addr count : Word16) (values : List Word16) (s : State) :
    Host.Outcome State Fault Refusal :=
  checkedRequest (values.length == count.toNat) slave (planWriteRegisters addr count values) s

/-- READ_WRITE_MULTIPLE_REGISTERS (rule R438). -/
def execReadWriteMultipleRegisters (slave : Byte) (raddr rcount waddr wcount : Word16) (values : List Word16) (s : State) :
    Host.Outcome State Fault Refusal :=
  checkedRequest (values.length == wcount.toNat) slave (planReadWrite raddr rcount waddr wcount values) s

/-! ### The request PDUs: the master engine sends the PDU to station `inputs.address` -/

/-- PDU_REQ_READ_COILS (rules R148, R430). -/
def execPduReqReadCoils (a q : Word16) (s : State) : Host.Outcome State Fault Refusal :=
  requestCommand s.inputs.address (planRead 0x01#8 2000 a q) s

/-- PDU_REQ_READ_DISCRETE_INPUTS (rules R148, R431). -/
def execPduReqReadDiscreteInputs (a q : Word16) (s : State) : Host.Outcome State Fault Refusal :=
  requestCommand s.inputs.address (planRead 0x02#8 2000 a q) s

/-- PDU_REQ_READ_HOLDING_REGISTERS (rules R148, R432). -/
def execPduReqReadHoldingRegisters (a q : Word16) (s : State) : Host.Outcome State Fault Refusal :=
  requestCommand s.inputs.address (planRead 0x03#8 125 a q) s

/-- PDU_REQ_READ_INPUT_REGISTERS (rules R148, R433). -/
def execPduReqReadInputRegisters (a q : Word16) (s : State) : Host.Outcome State Fault Refusal :=
  requestCommand s.inputs.address (planRead 0x04#8 125 a q) s

/-- PDU_REQ_WRITE_SINGLE_COIL (rules R148, R434). -/
def execPduReqWriteSingleCoil (a v : Word16) (s : State) : Host.Outcome State Fault Refusal :=
  checkedRequest (coilValue v) s.inputs.address (planWriteSingle 0x05#8 a v) s

/-- PDU_REQ_WRITE_SINGLE_REGISTER (rules R148, R435). -/
def execPduReqWriteSingleRegister (a v : Word16) (s : State) : Host.Outcome State Fault Refusal :=
  requestCommand s.inputs.address (planWriteSingle 0x06#8 a v) s

/-- PDU_REQ_WRITE_MULTIPLE_COILS (rules R148, R436). -/
def execPduReqWriteMultipleCoils (a q : Word16) (bc : Byte) (d : List Byte) (s : State) :
    Host.Outcome State Fault Refusal :=
  checkedRequest (Instr.wf (.pduReqWriteMultipleCoils a q bc d)) s.inputs.address (planWriteCoils a q d) s

/-- PDU_REQ_WRITE_MULTIPLE_REGISTERS (rules R148, R437). -/
def execPduReqWriteMultipleRegisters (a q : Word16) (bc : Byte) (values : List Word16) (s : State) :
    Host.Outcome State Fault Refusal :=
  checkedRequest (Instr.wf (.pduReqWriteMultipleRegisters a q bc values)) s.inputs.address
    (planWriteRegisters a q values) s

/-- PDU_REQ_READ_WRITE_MULTIPLE_REGISTERS (rules R148, R438). -/
def execPduReqReadWriteMultipleRegisters (ra rq wa wq : Word16) (bc : Byte) (values : List Word16) (s : State) :
    Host.Outcome State Fault Refusal :=
  checkedRequest (Instr.wf (.pduReqReadWriteMultipleRegisters ra rq wa wq bc values)) s.inputs.address
    (planReadWrite ra rq wa wq values) s

end Sys2Proof.Machine
end

