-- ==== Sys2Proof/Machine/RtuFramer.lean ====
section
/-! DEFINITION. The meanings of the commands to the RTU framer (rules R205 to R241, R650). -/

namespace Sys2Proof.Machine

/-- RTU.RESET (rule R650). The buffer and its `written` flags are not changed. -/
def execRtuReset (s : State) : Host.Outcome State Fault Refusal :=
  .next (s.command fun s => { s with rtu := RtuFramer.reset (nowTick s.cfg s.inputs) s.rtu.buf })

/-- SETUP's writes whether its arguments are valid or not (rule R205). -/
def setupRegisters (t : Nat) (baud ifdUs icdUs : Word32) (r : RtuFramer) : RtuFramer :=
  { r with configured := true, baud := baud, ifdUs := ifdUs, icdUs := icdUs, txen := false, bufferLen := 0, rxCount := 0,
           holdN := 0, txIndex := 0, last := t }

/-- RTU.SETUP (rule R205). -/
def execRtuSetup (baud ifdUs icdUs : Word32) (s : State) : Host.Outcome State Fault Refusal :=
  .next (s.command fun s =>
    let r := setupRegisters (nowTick s.cfg s.inputs) baud ifdUs icdUs s.rtu
    if setupInvalid s.cfg baud.toNat ifdUs.toNat icdUs.toNat then
      State.answer (.bool false) ({ s with rtu := { r with st := .exception } }.emitCause .rtu .config)
    else
      State.answer (.bool true)
        { s with rtu := { r with t15 := some (usToTicks s.cfg (t15Us s.cfg baud.toNat icdUs.toNat)),
                                 t35 := some (usToTicks s.cfg (t35Us s.cfg baud.toNat ifdUs.toNat)), st := .idle } })

/-- RTU.SET_STATION_ADDRESS (rule R207). -/
def execRtuSetStationAddress (addr : Byte) (s : State) : Host.Outcome State Fault Refusal :=
  .next (s.command fun s => { s with rtu := { s.rtu with stationAddress := addr } })

/-- RTU.POLL (rule R211). -/
def execRtuPoll (s : State) : Host.Outcome State Fault Refusal := .next (s.command (rtuPoll s.inputs))

/-- RTU.BEGIN_SEND (rule R228). -/
def execRtuBeginSend (s : State) : Host.Outcome State Fault Refusal :=
  .next (s.command fun s =>
    if s.rtu.configured then
      if s.canBeginSend .rtu then State.answer (.bool true) (s.enterQueue .rtu) else s.answer (.bool false)
    else s.raise .notConfigured)

/-- RTU.SEND (rule R230). -/
def execRtuSend (s : State) : Host.Outcome State Fault Refusal :=
  .next (s.command fun s =>
    if s.rtu.configured then
      if s.canSend .rtu then (framerTransmit s.inputs .rtu s).andThen (State.answer (.bool true))
      else s.answer (.bool false)
    else s.raise .notConfigured)

/-- RTU.FINISHED (rule R238). -/
def execRtuFinished (s : State) : Host.Outcome State Fault Refusal := .next (s.command rtuFinished)

end Sys2Proof.Machine
end

