-- ==== Sys2Proof/Machine/WireFrames.lean ====
section
/-! DEFINITION. The meanings of the reply PDUs (rules R149, R150, R460 to R469) and of the two ADUs (rules R140, R143):
what the block does when one arrives on a line (DESIGN CHOICE, notes/assumptions/2.md). -/

namespace Sys2Proof.Machine

/-- A reply PDU arrives. -/
def replyCommand (p : List Byte) (s : State) : Host.Outcome State Fault Refusal :=
  .next (s.command fun s => replyArrives s.inputs p s)

/-- PDU_RSP_READ_COILS (rule R461). -/
def execPduRspReadCoils (bc : Byte) (d : List Byte) (s : State) : Host.Outcome State Fault Refusal :=
  replyCommand (pduCounted 0x01#8 bc d) s

/-- PDU_RSP_READ_DISCRETE_INPUTS (rule R461). -/
def execPduRspReadDiscreteInputs (bc : Byte) (d : List Byte) (s : State) : Host.Outcome State Fault Refusal :=
  replyCommand (pduCounted 0x02#8 bc d) s

/-- PDU_RSP_READ_HOLDING_REGISTERS (rule R462). -/
def execPduRspReadHoldingRegisters (bc : Byte) (values : List Word16) (s : State) : Host.Outcome State Fault Refusal :=
  replyCommand (pduCounted 0x03#8 bc (bytesOfWords values)) s

/-- PDU_RSP_READ_INPUT_REGISTERS (rule R462). -/
def execPduRspReadInputRegisters (bc : Byte) (values : List Word16) (s : State) : Host.Outcome State Fault Refusal :=
  replyCommand (pduCounted 0x04#8 bc (bytesOfWords values)) s

/-- PDU_RSP_WRITE_SINGLE_COIL (rule R464). -/
def execPduRspWriteSingleCoil (a v : Word16) (s : State) : Host.Outcome State Fault Refusal :=
  replyCommand (pduWords 0x05#8 a v) s

/-- PDU_RSP_WRITE_SINGLE_REGISTER (rule R465). -/
def execPduRspWriteSingleRegister (a v : Word16) (s : State) : Host.Outcome State Fault Refusal :=
  replyCommand (pduWords 0x06#8 a v) s

/-- PDU_RSP_WRITE_MULTIPLE_COILS (rule R466). -/
def execPduRspWriteMultipleCoils (a q : Word16) (s : State) : Host.Outcome State Fault Refusal :=
  replyCommand (pduWords 0x0F#8 a q) s

/-- PDU_RSP_WRITE_MULTIPLE_REGISTERS (rule R466). -/
def execPduRspWriteMultipleRegisters (a q : Word16) (s : State) : Host.Outcome State Fault Refusal :=
  replyCommand (pduWords 0x10#8 a q) s

/-- PDU_RSP_READ_WRITE_MULTIPLE_REGISTERS (rule R467). -/
def execPduRspReadWriteMultipleRegisters (bc : Byte) (values : List Word16) (s : State) :
    Host.Outcome State Fault Refusal :=
  replyCommand (pduCounted 0x17#8 bc (bytesOfWords values)) s

/-- PDU_RSP_EXCEPTION (rule R468). -/
def execPduRspException (fc : BitVec 7) (code : Byte) (s : State) : Host.Outcome State Fault Refusal :=
  replyCommand (pduException fc code) s

/-- PDU_RSP_OTHER (rule R469). -/
def execPduRspOther (fc : Byte) (data : List Byte) (s : State) : Host.Outcome State Fault Refusal :=
  replyCommand (fc :: data) s

/-- RTU_ADU (rule R140). -/
def execRtuAdu (address : Byte) (pdu : List Byte) (crcLo crcHi : Byte) (s : State) : Host.Outcome State Fault Refusal :=
  .next (s.command fun s => rtuLineFrame s.inputs (rtuAduBytes address pdu crcLo crcHi) s)

/-- ASCII_ADU (rule R143). -/
def execAsciiAdu (address : Byte) (pdu : List Byte) (lrc : Byte) (s : State) : Host.Outcome State Fault Refusal :=
  .next (s.command fun s => ascLineFrame s.inputs (asciiAduChars address pdu lrc) s)

/-- A message its port's decoder refuses. At a port of the host's commands, and as a request PDU, it is
`Fault(BAD_COMMAND)` (rules R171, R631). On a line, any bytes can arrive and the framer's rules say what they do
(rules R156, R217, R311); a reply PDU that is no row of the table is one the master engine finds malformed (rule R455). -/
def undecoded (p : Port) (message : List Byte) (s : State) : State :=
  s.command fun s =>
    match p with
    | .rtu | .asc | .mst | .request => s.raise .badCommand
    | .reply => replyArrives s.inputs message s
    | .rtuLine => rtuLineFrame s.inputs message s
    | .ascLine => ascLineFrame s.inputs message s

/-- The next message is taken up: it leaves the queue, and the agents outside the block answer for it. -/
def State.begin (r : Request) (rest : List Request) (s : State) : State :=
  { s with inputs := r.inputs, pending := rest, result := .none }

end Sys2Proof.Machine
end

