-- ==== Sys2Proof/Machine/Dispatch.lean ====
section
/-! DEFINITION. One arm per instruction: each calls the instruction's meaning. -/

namespace Sys2Proof.Machine

def exec (i : Instr) (s : State) : Host.Outcome State Fault Refusal :=
  match i with
  | .rtuReset => Sys2Proof.Machine.execRtuReset s
  | .ascReset => Sys2Proof.Machine.execAscReset s
  | .rtuSetup baud ifdUs icdUs => Sys2Proof.Machine.execRtuSetup baud ifdUs icdUs s
  | .ascSetTimeout ms => Sys2Proof.Machine.execAscSetTimeout ms s
  | .rtuSetStationAddress addr => Sys2Proof.Machine.execRtuSetStationAddress addr s
  | .ascSetStationAddress addr => Sys2Proof.Machine.execAscSetStationAddress addr s
  | .rtuPoll => Sys2Proof.Machine.execRtuPoll s
  | .ascPoll => Sys2Proof.Machine.execAscPoll s
  | .rtuBeginSend => Sys2Proof.Machine.execRtuBeginSend s
  | .ascBeginSend => Sys2Proof.Machine.execAscBeginSend s
  | .rtuSend => Sys2Proof.Machine.execRtuSend s
  | .ascSend => Sys2Proof.Machine.execAscSend s
  | .rtuFinished => Sys2Proof.Machine.execRtuFinished s
  | .ascFinished => Sys2Proof.Machine.execAscFinished s
  | .bufRead u k => Sys2Proof.Machine.execBufRead u k s
  | .bufWrite u k v => Sys2Proof.Machine.execBufWrite u k v s
  | .setFrame u addr n => Sys2Proof.Machine.execSetFrame u addr n s
  | .readStatus u => Sys2Proof.Machine.execReadStatus u s
  | .mReset => Sys2Proof.Machine.execMReset s
  | .mSetResponseTimeout ms => Sys2Proof.Machine.execMSetResponseTimeout ms s
  | .mSetTurnaround ms => Sys2Proof.Machine.execMSetTurnaround ms s
  | .mPoll => Sys2Proof.Machine.execMPoll s
  | .mAckError => Sys2Proof.Machine.execMAckError s
  | .mReadStatus => Sys2Proof.Machine.execMReadStatus s
  | .readCoils slave addr count => Sys2Proof.Machine.execReadCoils slave addr count s
  | .readDiscreteInputs slave addr count => Sys2Proof.Machine.execReadDiscreteInputs slave addr count s
  | .readHoldingRegisters slave addr count => Sys2Proof.Machine.execReadHoldingRegisters slave addr count s
  | .readInputRegisters slave addr count => Sys2Proof.Machine.execReadInputRegisters slave addr count s
  | .writeSingleCoil slave addr value => Sys2Proof.Machine.execWriteSingleCoil slave addr value s
  | .writeSingleRegister slave addr value => Sys2Proof.Machine.execWriteSingleRegister slave addr value s
  | .writeMultipleCoils slave addr count bits => Sys2Proof.Machine.execWriteMultipleCoils slave addr count bits s
  | .writeMultipleRegisters slave addr count values => Sys2Proof.Machine.execWriteMultipleRegisters slave addr count values s
  | .readWriteMultipleRegisters slave ra rc wa wc values => Sys2Proof.Machine.execReadWriteMultipleRegisters slave ra rc wa wc values s
  | .pduReqReadCoils a q => Sys2Proof.Machine.execPduReqReadCoils a q s
  | .pduReqReadDiscreteInputs a q => Sys2Proof.Machine.execPduReqReadDiscreteInputs a q s
  | .pduReqReadHoldingRegisters a q => Sys2Proof.Machine.execPduReqReadHoldingRegisters a q s
  | .pduReqReadInputRegisters a q => Sys2Proof.Machine.execPduReqReadInputRegisters a q s
  | .pduReqWriteSingleCoil a v => Sys2Proof.Machine.execPduReqWriteSingleCoil a v s
  | .pduReqWriteSingleRegister a v => Sys2Proof.Machine.execPduReqWriteSingleRegister a v s
  | .pduReqWriteMultipleCoils a q bc d => Sys2Proof.Machine.execPduReqWriteMultipleCoils a q bc d s
  | .pduReqWriteMultipleRegisters a q bc values => Sys2Proof.Machine.execPduReqWriteMultipleRegisters a q bc values s
  | .pduReqReadWriteMultipleRegisters ra rq wa wq bc values => Sys2Proof.Machine.execPduReqReadWriteMultipleRegisters ra rq wa wq bc values s
  | .pduRspReadCoils bc d => Sys2Proof.Machine.execPduRspReadCoils bc d s
  | .pduRspReadDiscreteInputs bc d => Sys2Proof.Machine.execPduRspReadDiscreteInputs bc d s
  | .pduRspReadHoldingRegisters bc values => Sys2Proof.Machine.execPduRspReadHoldingRegisters bc values s
  | .pduRspReadInputRegisters bc values => Sys2Proof.Machine.execPduRspReadInputRegisters bc values s
  | .pduRspWriteSingleCoil a v => Sys2Proof.Machine.execPduRspWriteSingleCoil a v s
  | .pduRspWriteSingleRegister a v => Sys2Proof.Machine.execPduRspWriteSingleRegister a v s
  | .pduRspWriteMultipleCoils a q => Sys2Proof.Machine.execPduRspWriteMultipleCoils a q s
  | .pduRspWriteMultipleRegisters a q => Sys2Proof.Machine.execPduRspWriteMultipleRegisters a q s
  | .pduRspReadWriteMultipleRegisters bc values => Sys2Proof.Machine.execPduRspReadWriteMultipleRegisters bc values s
  | .pduRspException fc code => Sys2Proof.Machine.execPduRspException fc code s
  | .pduRspOther fc data => Sys2Proof.Machine.execPduRspOther fc data s
  | .rtuAdu address pdu crcLo crcHi => Sys2Proof.Machine.execRtuAdu address pdu crcLo crcHi s
  | .asciiAdu address pdu lrc => Sys2Proof.Machine.execAsciiAdu address pdu lrc s

end Sys2Proof.Machine
end

