-- ==== Sys2Proof/Machine/Step.lean ====
section
/-! DEFINITION. One step of the block: the next message issued to it is decoded and run, as one atomic command (rules R7,
R117). With no message the block does nothing (rule R646). -/

namespace Sys2Proof.Machine

/-- One step. -/
def step (s : State) : Host.Outcome State Fault Refusal :=
  match s.pending with
  | [] => .next s
  | r :: rest =>
    match decode r.port r.message with
    | some i => exec i (s.begin r rest)
    | none => .next (undecoded r.port r.message (s.begin r rest))

/-- The message that a word of the opcode table spells. The word names no destination, so it goes to the port whose
instruction `decodeTableWord` answers (DESIGN CHOICE, notes/assumptions/3.md); a word no port reads goes to the RTU framer's. -/
def wordRequest (env : Inputs) (nbits w : Nat) : Request :=
  match fetchWord nbits w with
  | some (p, message, _) => ⟨p, message, env⟩
  | none => ⟨.rtu, wordBytes nbits w, env⟩

/-- `s` with that message issued as the next one, under the answers of the outside agents that `s` holds. -/
def State.withFetchWord (s : State) (nbits w : Nat) : State :=
  { s with pending := wordRequest s.inputs nbits w :: s.pending }

end Sys2Proof.Machine
end

