-- ==== Sys2Proof/Safety.lean ====
section
/-! DEFINITION. What the statements are stated in: a safe run, the invariants of each unit (rules R101, R111, R242, R328,
R450 among them), the part of the state that is one unit's, and the ADU that a request puts on the line. -/

namespace Sys2Proof.Machine

/-- A run is safe while no command has broken a precondition (rules R15, R630). -/
def State.safe (s : State) : Prop := s.fault = none

/-! ### Invariants -/

/-- The bytes of the delay line, the older first (rule R45). -/
def RtuFramer.held (r : RtuFramer) : List Byte := [r.hold0, r.hold1].take r.holdN.val

/-- The RTU framer's invariant: rules R242 (a) to (f), R101, R111, R35, R38, R44, R46, R47, R48, and what makes them
inductive. -/
structure RtuInv (c : Config) (r : RtuFramer) : Prop where
  bufWf : r.buf.wf = true
  bufBound : ∀ cell ∈ r.buf, cell.1 < c.bufferMax
  lenCap : r.bufferLen ≤ cap c
  rxCap : r.rxCount ≤ cap c + 3
  txCap : r.txIndex ≤ cap c
  lastTick : r.last < tickModulus c
  unconfigured : r.configured = false → r.st = .idle
  timed : r.configured = true → r.st ≠ .exception →
    ∃ t15 t35, r.t15 = some t15 ∧ r.t35 = some t35 ∧ 2 ≤ t15 ∧ t15 < tickModulus c ∧ 2 ≤ t35 ∧ t35 < tickModulus c
  empty : r.st = .idle ∨ r.st = .dump ∨ r.st = .exception → r.bufferLen = 0
  counted : r.st = .receive → r.rxCount = 1 + r.bufferLen + r.holdN.val
  delayed : r.st = .receive → r.holdN.val < 2 → r.bufferLen = 0
  checked : r.st = .receive →
    ∃ p, r.buf.readRange 0 r.bufferLen = some p ∧ r.crc = crc16 (r.frameAddress :: (p ++ r.held))
  enabled : r.txen = r.st.transmitting
  sending : r.st.transmitting = true →
    1 ≤ r.bufferLen ∧ ∃ p, r.buf.readRange 0 r.bufferLen = some p ∧ r.txCrc = crc16 (r.frameAddress :: p)
  sendAddr : r.st = .txAddr → r.txIndex = 0
  sendPdu : r.st = .txPdu → r.txIndex < r.bufferLen
  sendCrc : r.st = .txCrc → r.txIndex < 2
  ready : r.st = .frameReady ∨ r.st = .collision →
    c.minPdu ≤ r.bufferLen ∧ ∃ p, r.buf.readRange 0 r.bufferLen = some p

/-- The ASCII framer's invariant: rules R328 (a) to (e), R101, R111, R35, R55, R56, R57, and what makes them inductive. -/
structure AscInv (c : Config) (a : AscFramer) : Prop where
  bufWf : a.buf.wf = true
  bufBound : ∀ cell ∈ a.buf, cell.1 < c.bufferMax
  lenCap : a.bufferLen ≤ cap c
  txCap : a.txIndex ≤ cap c
  lastTick : a.last < tickModulus c
  untimed : a.st = .exception ↔ c.usPerTick = 0
  timed : c.usPerTick ≠ 0 → 2 ≤ a.timeoutTicks ∧ a.timeoutTicks < tickModulus c
  empty : a.st = .idle ∨ a.st = .exception → a.bufferLen = 0
  started : a.st = .rxAddrHigh ∨ a.st = .rxAddrLow → a.lrc = 0#8 ∧ a.bufferLen = 0 ∧ a.pendValid = false
  summed : a.st = .rxPduHigh ∨ a.st = .rxPduLow ∨ a.st = .rxCr →
    ∃ p, a.buf.readRange 0 a.bufferLen = some p ∧ a.lrc = byteSum (a.frameAddress :: p)
  delayed : a.st = .rxPduHigh ∨ a.st = .rxPduLow ∨ a.st = .rxCr → a.pendValid = false → a.bufferLen = 0
  enabled : a.txen = a.st.transmitting
  sending : a.st.transmitting = true →
    1 ≤ a.bufferLen ∧ ∃ p, a.buf.readRange 0 a.bufferLen = some p ∧ a.txLrc = lrcOf a.frameAddress p
  sendStart : a.st = .txSof ∨ a.st = .txAddrHigh ∨ a.st = .txAddrLow → a.txIndex = 0
  sendPdu : a.st = .txPduHigh ∨ a.st = .txPduLow → a.txIndex < a.bufferLen
  ready : a.st = .frameReady ∨ a.st = .collision →
    c.minPdu ≤ a.bufferLen ∧ ∃ p, a.buf.readRange 0 a.bufferLen = some p

/-- The master engine's invariant: `processing_reply` is never visible between commands (rules R58, R400), a broadcast
never waits for a reply (rule R473), and its ticks are ticks (rules R60, R61). -/
structure MstInv (c : Config) (m : Master) : Prop where
  visible : m.st ≠ .processingReply
  unicast : m.st = .waitingForReply → m.slave ≠ 0#8
  broadcast : m.st = .waitingTurnaroundReply → m.slave = 0#8
  stampTick : m.stamp < tickModulus c
  rtTick : m.rtTicks < tickModulus c
  taTick : m.taTicks < tickModulus c

/-- A framer that holds a received frame for its host. -/
def State.holdsFrame (s : State) : FramerKind → Prop
  | .rtu => s.rtu.st = .frameReady ∨ s.rtu.st = .collision
  | .ascii => s.asc.st = .frameReady ∨ s.asc.st = .collision

/-- The invariant of the block, for parameters that meet rule R10. A bound framer never rests in `frame_ready` (rule
R450), so it never reaches `collision` either. -/
structure State.Inv (s : State) : Prop where
  cfg : s.cfg.wf = true
  rtu : RtuInv s.cfg s.rtu
  asc : AscInv s.cfg s.asc
  mst : MstInv s.cfg s.mst
  bound : ∀ u, s.cfg.master = some u → ¬ s.holdsFrame u

/-! ### Lines, framers and the master engine -/

/-- `Now() = now mod 2^W` for the command that runs (rules R9, R32). -/
def State.now (s : State) : Nat := s.inputs.now % 2 ^ s.cfg.tickWidth

/-- The bytes that the stream of a framer has accepted. -/
def State.line (s : State) : FramerKind → List Byte
  | .rtu => s.rtuLine
  | .ascii => s.ascLine

/-- The state code of a framer is `idle` or `frame_ready`: BEGIN_SEND succeeds (rules R228, R320). -/
def State.free (s : State) : FramerKind → Prop
  | .rtu => s.rtu.st = .idle ∨ s.rtu.st = .frameReady
  | .ascii => s.asc.st = .idle ∨ s.asc.st = .frameReady

/-- A character of the ASCII format in upper case (90_conflicts.md C10). -/
def upperHex (c : Byte) : Byte := if 0x61 ≤ c.toNat ∧ c.toNat ≤ 0x66 then c - 0x20#8 else c

/-! ### What a transmission puts on the line, in closed form -/

/-- How many of `len` offers the stream accepts in this command (rule R185). -/
def Inputs.accepted (env : Inputs) (len : Nat) : Nat :=
  match env.txAccept with
  | none => len
  | some k => min k len

/-- `rtu.st` and `rtu.tx_index` when `n` bytes of the ADU of a PDU of `len` bytes have been accepted (rules R231, R233; the
index after the CRC: DEDUCED, notes/assumptions/9.md). -/
def rtuSentAt (c : Config) (len n : Nat) : RtuSt × Nat :=
  if n = 0 then (.txAddr, 0) else if n ≤ len then (.txPdu, n - 1) else if n < len + 3 then (.txCrc, n - (len + 1))
  else (.txDrain, min 2 (cap c))

/-- `asc.st` and `asc.tx_index` when `n` characters of the ADU of a PDU of `len` bytes have been accepted (rules R322,
R323). -/
def ascSentAt (len n : Nat) : AscSt × Nat :=
  if n = 0 then (.txSof, 0) else if n = 1 then (.txAddrHigh, 0) else if n = 2 then (.txAddrLow, 0)
  else if n < 3 + 2 * len then (if (n - 3) % 2 = 0 then .txPduHigh else .txPduLow, (n - 3) / 2)
  else if n = 3 + 2 * len then (.txLrcHigh, len) else if n = 4 + 2 * len then (.txLrcLow, len)
  else if n = 5 + 2 * len then (.txCr, len) else if n = 6 + 2 * len then (.txLf, len) else (.txWait, len)

/-- The RTU framer's transmit progress, all at once: `m` bytes of the ADU of PDU `p` to `a` have been accepted before the
command (rules R231, R233, R234, R236). -/
def State.rtuOffered (m : Nat) (a : Byte) (p : List Byte) (s : State) : State :=
  let rest := (rtuAduOf a p).drop m
  let k := s.inputs.accepted rest.length
  let t := { s with rtuLine := s.rtuLine ++ rest.take k
                    rtu := { s.rtu with
                      st := (rtuSentAt s.cfg p.length (m + k)).1, txIndex := (rtuSentAt s.cfg p.length (m + k)).2 } }
  if k < rest.length then
    if s.inputs.txError then
      { t with events := s.events ++ [.cause .rtu .txTransport], rtu := { t.rtu with st := .idle, txen := false, bufferLen := 0 } }
    else t
  else if s.inputs.writeComplete then { t with rtu := { t.rtu with st := .txWait, txen := false, last := s.now } }
  else t

/-- The ASCII framer's transmit progress, all at once (rules R322, R323, R325, R326). -/
def State.ascOffered (m : Nat) (a : Byte) (p : List Byte) (s : State) : State :=
  let rest := (asciiAduOf a p).drop m
  let k := s.inputs.accepted rest.length
  let t := { s with ascLine := s.ascLine ++ rest.take k
                    asc := { s.asc with st := (ascSentAt p.length (m + k)).1, txIndex := (ascSentAt p.length (m + k)).2 } }
  if k < rest.length then
    if s.inputs.txError then
      { t with events := s.events ++ [.cause .ascii .txTransport], asc := { t.asc with st := .idle, txen := false, bufferLen := 0 } }
    else t
  else if s.inputs.writeComplete then
    { t with asc := { t.asc with st := .idle, txen := false, bufferLen := 0, last := s.now } }
  else t

/-! ### What a POLL finds -/

/-- The RTU framer has read what the stream returned, while it transmits: the last byte restamps it, and every byte is
dropped (rules R214, R218); an ERROR is recorded and changes nothing else (rule R240). -/
def State.rtuHeard (s : State) : State :=
  { s with
    rtu := { s.rtu with last := if s.inputs.rx = [] then s.rtu.last else s.now }
    events := if s.inputs.rxError then s.events ++ [.cause .rtu .rxTransport] else s.events }

/-- The same for the ASCII framer (rules R307, R314, R317). -/
def State.ascHeard (s : State) : State :=
  { s with
    asc := { s.asc with last := if s.inputs.rx = [] then s.asc.last else s.now }
    events := if s.inputs.rxError then s.events ++ [.cause .ascii .rxTransport] else s.events }

/-- `s` with what the stream returns to a POLL: these bytes, then ERROR or NONE (rule R120). -/
def State.hearing (s : State) (rx : List Byte) (err : Bool) : State :=
  { s with inputs := { s.inputs with rx := rx, rxError := err } }

/-! ### Requests -/

/-- The requests: the nine commands (rules R430 to R438) and the nine request PDUs (rule R148). -/
def isRequest : Instr → Bool
  | .readCoils .. | .readDiscreteInputs .. | .readHoldingRegisters .. | .readInputRegisters .. | .writeSingleCoil ..
  | .writeSingleRegister .. | .writeMultipleCoils .. | .writeMultipleRegisters .. | .readWriteMultipleRegisters ..
  | .pduReqReadCoils .. | .pduReqReadDiscreteInputs .. | .pduReqReadHoldingRegisters .. | .pduReqReadInputRegisters ..
  | .pduReqWriteSingleCoil .. | .pduReqWriteSingleRegister .. | .pduReqWriteMultipleCoils ..
  | .pduReqWriteMultipleRegisters .. | .pduReqReadWriteMultipleRegisters .. => true
  | _ => false

/-- The count limits of rule R440. -/
def countsInLimits : Instr → Bool
  | .readCoils _ _ n | .readDiscreteInputs _ _ n | .pduReqReadCoils _ n | .pduReqReadDiscreteInputs _ n =>
      1 ≤ n.toNat && n.toNat ≤ 2000
  | .readHoldingRegisters _ _ n | .readInputRegisters _ _ n | .pduReqReadHoldingRegisters _ n
  | .pduReqReadInputRegisters _ n => 1 ≤ n.toNat && n.toNat ≤ 125
  | .writeMultipleCoils _ _ n _ | .pduReqWriteMultipleCoils _ n _ _ => 1 ≤ n.toNat && n.toNat ≤ 1968
  | .writeMultipleRegisters _ _ n _ | .pduReqWriteMultipleRegisters _ n _ _ => 1 ≤ n.toNat && n.toNat ≤ 123
  | .readWriteMultipleRegisters _ _ r _ n _ | .pduReqReadWriteMultipleRegisters _ r _ n _ _ =>
      1 ≤ r.toNat && r.toNat ≤ 125 && 1 ≤ n.toNat && n.toNat ≤ 121
  | _ => true

/-- The length of a request's PDU (rules R430 to R438). -/
def requestLength : Instr → Nat
  | .writeMultipleCoils _ _ n _ | .pduReqWriteMultipleCoils _ n _ _ => 6 + (n.toNat + 7) / 8
  | .writeMultipleRegisters _ _ n _ | .pduReqWriteMultipleRegisters _ n _ _ => 6 + 2 * n.toNat
  | .readWriteMultipleRegisters _ _ _ _ n _ | .pduReqReadWriteMultipleRegisters _ _ _ n _ _ => 10 + 2 * n.toNat
  | _ => 5

/-- A request whose PDU has `len` bytes passes every check of rule R411, on framer `u`. -/
def State.takesRequest (u : FramerKind) (len : Nat) (s : State) : Prop :=
  s.fault = none ∧ s.cfg.master = some u ∧ s.mst.st = .idle ∧ s.configured u = true ∧ s.free u ∧ len ≤ cap s.cfg

/-- The state after a request: the PDU in the framer's buffer, the ADU offered to the stream, the context, the stamp and
the state of the master engine (rules R410, R412, R413). -/
def State.requested (u : FramerKind) (slave : Byte) (pdu : List Byte) (readAddress writeAddress writeCount : Word16)
    (s : State) : State :=
  let t := match u with
    | .rtu =>
      { s with rtu := { s.rtu with buf := s.rtu.buf.writeList 0 pdu, bufferLen := pdu.length, frameAddress := slave,
                                   txCrc := crc16 (slave :: pdu), txen := true } }.rtuOffered 0 slave pdu
    | .ascii =>
      { s with asc := { s.asc with buf := s.asc.buf.writeList 0 pdu, bufferLen := pdu.length, frameAddress := slave,
                                   txLrc := lrcOf slave pdu, txen := true } }.ascOffered 0 slave pdu
  { t with
    result := .bool true
    mst := { s.mst with st := if slave = 0#8 then .waitingTurnaroundReply else .waitingForReply
                        slave := slave, readAddress := readAddress, writeAddress := writeAddress
                        writeCount := writeCount, stamp := s.now } }

/-! ### Replies -/

/-- What the master engine makes of a reply PDU of the table (rules R461 to R469); none is MALFORMED. -/
def expectedReply (m : Master) : Instr → Option Event
  | .pduRspReadCoils bc d => some (.responseBits 0x01#8 m.readAddress bc.toNat d)
  | .pduRspReadDiscreteInputs bc d => some (.responseBits 0x02#8 m.readAddress bc.toNat d)
  | .pduRspReadHoldingRegisters bc values => some (.responseRegisters 0x03#8 m.readAddress (bc.toNat / 2) values)
  | .pduRspReadInputRegisters bc values => some (.responseRegisters 0x04#8 m.readAddress (bc.toNat / 2) values)
  | .pduRspWriteSingleCoil a v => some (.responseCoil a (v == 0xFF00#16))
  | .pduRspWriteSingleRegister a v => some (.responseRegister a v)
  | .pduRspWriteMultipleCoils a q => if q = m.writeCount then some (.responseCount 0x0F#8 a q) else none
  | .pduRspWriteMultipleRegisters a q => if q = m.writeCount then some (.responseCount 0x10#8 a q) else none
  | .pduRspReadWriteMultipleRegisters bc values =>
      some (.responseReadWrite m.readAddress (bc.toNat / 2) values m.writeAddress m.writeCount)
  | .pduRspException fc code => some (.masterException fc code)
  | _ => none

/-- What the master engine makes of a valid frame of PDU `p` from station `a`, received on the framer it is bound to at tick
`now`: the events it records, and its registers (rules R450 to R455). -/
def State.frameTaken (s : State) (a : Byte) (p : List Byte) (now : Nat) : List Event × Master :=
  if p = [] ∨ s.mst.st ≠ .waitingForReply then ([.unsolicited], s.mst)
  else if a ≠ s.mst.slave then ([.stale], { s.mst with stamp := now })
  else
    match decodeReply s.mst p with
    | none => ([.malformed], { s.mst with st := .processingError })
    | some r => ([r, .verdict s.inputs.verdict], { s.mst with st := if s.inputs.verdict then .idle else .processingError })

/-- The POLL that `s` runs next finds the end of a valid frame on framer `u`: on the RTU framer T3.5 of silence, a frame
long enough, its residue 0x0000 (rules R220, R221); on the ASCII framer LF in `rx_cr`, a frame long enough, its LRC right
(rule R312); and on either an address that passes (rules R222, R313). -/
def State.endsFrame (s : State) : FramerKind → Prop
  | .rtu =>
      s.rtu.configured = true ∧ s.rtu.st = .receive ∧ s.inputs.rx = [] ∧ s.inputs.rxError = false ∧
      (∃ t35, s.rtu.t35 = some t35 ∧ t35 ≤ tickDiff s.cfg s.now s.rtu.last) ∧
      3 + s.cfg.minPdu ≤ s.rtu.rxCount ∧ s.rtu.crc = 0x0000#16 ∧
      (s.rtu.stationAddress = 0#8 ∨ s.rtu.frameAddress = s.rtu.stationAddress ∨ s.rtu.frameAddress = 0#8)
  | .ascii =>
      s.asc.st = .rxCr ∧ s.inputs.rx = [0x0A#8] ∧ s.inputs.rxError = false ∧
      tickDiff s.cfg s.now s.asc.last < s.asc.timeoutTicks ∧
      s.asc.pendValid = true ∧ s.cfg.minPdu ≤ s.asc.bufferLen ∧ s.asc.lrc + s.asc.pend = 0#8 ∧
      (s.asc.stationAddress = 0#8 ∨ s.asc.frameAddress = s.asc.stationAddress ∨ s.asc.frameAddress = 0#8)

/-- A frame from station `a` can be received whole on the line of framer `u`: the framer is in `idle` and its station
address lets `a` pass; an RTU framer has had a SETUP (rules R205, R216, R222, R309). -/
def State.listens (u : FramerKind) (a : Byte) (s : State) : Prop :=
  s.fault = none ∧
  match u with
  | .rtu => s.rtu.st = .idle ∧ s.rtu.configured = true ∧ (∃ t, s.rtu.t35 = some t ∧ t < 2 ^ s.cfg.tickWidth) ∧
      (s.rtu.stationAddress = 0#8 ∨ a = s.rtu.stationAddress ∨ a = 0#8)
  | .ascii => s.asc.st = .idle ∧ (s.asc.stationAddress = 0#8 ∨ a = s.asc.stationAddress ∨ a = 0#8)

end Sys2Proof.Machine
end

