-- ==== Sys2Proof/Certificates/Slice0/Obligations.lean ====
section
/-! DEFINITION. The statements for the provers. Each formalises rules of spec/ (its docstring names them); the sub-steps a
statement speaks of in closed form (`rtuOffered`, `requested`, `expectedReply` and others) are defined in Safety.lean,
apart from the model's own procedures. -/

section

open Sys2Proof Sys2Proof.Machine

/-! ### Encoding -/

/-- Rules R140, R143, R148 to R150, R170: decoding the encoding of a well-formed instruction, at its port, gives it back. -/
def Obligations.EveryInstructionDecodesBack : Prop :=
  ∀ i : Instr, i.wf = true → decode (portOf i) (encode i) = some i

/-- Rules R140, R143, R148 to R150, R170; 90_conflicts.md C10: what the decoder reads is a well-formed instruction of the
port, and the message is that instruction's encoding; on the ASCII line up to the case of its hex letters. That a message is
its instruction's encoding and no byte more rests on the model's choice to refuse surplus bytes (DESIGN CHOICE,
notes/assumptions/10.md). -/
def Obligations.EveryMessageIsItsInstructionsEncoding : Prop :=
  ∀ (p : Port) (m : List Byte) (i : Instr), decode p m = some i →
    i.wf = true ∧ portOf i = p ∧ (p ≠ .ascLine → encode i = m) ∧ (p = .ascLine → encode i = m.map upperHex)

/-- 95_test_vectors.md P1 to P6, V22, V4: words written out from the spec decode to the commands they stand for. -/
def Obligations.SpecWordsDecode : Prop :=
  decode .rtu [0x01, 0x00, 0x00, 0x25, 0x80, 0x00, 0x00, 0x00, 0x00, 0x00, 0x00, 0x00, 0x00] = some (.rtuSetup 9600 0 0) ∧
  decode .asc [0x02, 0x00, 0x00, 0x00, 0xFA] = some (.ascSetTimeout 250) ∧
  decode .rtu [0x09, 0x00, 0x04, 0xFF] = some (.bufWrite .rtu 4 0xFF) ∧
  decode .asc [0x0A, 0x01, 0x00, 0x05] = some (.setFrame .ascii 1 5) ∧
  decode .mst [0x33, 0x01, 0x00, 0x00, 0x00, 0x02] = some (.readHoldingRegisters 1 0 2) ∧
  decode .mst [0x36, 0x00, 0x00, 0x01, 0x12, 0x34] = some (.writeSingleRegister 0 1 0x1234) ∧
  decode .request [0x10, 0x00, 0x01, 0x00, 0x02, 0x04, 0x00, 0x0A, 0x01, 0x02] =
    some (.pduReqWriteMultipleRegisters 1 2 4 [0x000A, 0x0102]) ∧
  decode .reply [0x03, 0x04, 0x12, 0x34, 0x56, 0x78] = some (.pduRspReadHoldingRegisters 4 [0x1234, 0x5678]) ∧
  decode .reply [0x83, 0x02] = some (.pduRspException 0x03 0x02) ∧
  decode .rtuLine [0x01, 0x03, 0x00, 0x00, 0x00, 0x02, 0xC4, 0x0B] =
    some (.rtuAdu 0x01 [0x03, 0x00, 0x00, 0x00, 0x02] 0xC4 0x0B) ∧
  decode .ascLine [0x3A, 0x30, 0x31, 0x30, 0x33, 0x30, 0x30, 0x30, 0x30, 0x30, 0x30, 0x30, 0x32, 0x46, 0x41, 0x0D, 0x0A] =
    some (.asciiAdu 0x01 [0x03, 0x00, 0x00, 0x00, 0x02] 0xFA)

/-- Rules R171, R631: what the command decoder refuses, and that a refusal is `Fault(BAD_COMMAND)` with no other effect on
the block. -/
def Obligations.CommandDecoderRefusals : Prop :=
  (∀ (u : FramerKind) (op : Byte) (args : List Byte), 0x0C ≤ op.toNat → decode (framerPort u) (op :: args) = none) ∧
  (∀ (op : Byte) (args : List Byte),
    op.toNat ∉ [0x20, 0x21, 0x22, 0x23, 0x24, 0x25, 0x31, 0x32, 0x33, 0x34, 0x35, 0x36, 0x3F, 0x40, 0x47] →
    decode .mst (op :: args) = none) ∧
  (∀ args : List Byte, decode .asc (0x01#8 :: args) = none ∧ decode .rtu (0x02#8 :: args) = none) ∧
  (∀ s ah al v : Byte, v ≠ 0x00#8 → v ≠ 0x01#8 → decode .mst [0x35#8, s, ah, al, v] = none) ∧
  (∀ (s ah al ch cl : Byte) (d : List Byte),
    (d.length < ((be16 ch cl).toNat + 7) / 8 → decode .mst (0x3F#8 :: s :: ah :: al :: ch :: cl :: d) = none) ∧
    (d.length < 2 * (be16 ch cl).toNat → decode .mst (0x40#8 :: s :: ah :: al :: ch :: cl :: d) = none)) ∧
  (∀ (s rah ral rch rcl wah wal wch wcl : Byte) (d : List Byte), d.length < 2 * (be16 wch wcl).toNat →
    decode .mst (0x47#8 :: s :: rah :: ral :: rch :: rcl :: wah :: wal :: wch :: wcl :: d) = none) ∧
  (∀ (s : State) (r : Request) (rest : List Request), s.fault = none → s.pending = r :: rest →
    (r.port = .rtu ∨ r.port = .asc ∨ r.port = .mst) → decode r.port r.message = none →
    step s = .next { s with inputs := r.inputs, pending := rest, result := .none, fault := some .badCommand }) ∧
  (∀ (i : Instr) (s : State), s.fault = none → s.cfg.master = none → portOf i = .mst →
    exec i s = .next { s with result := .none, fault := some .badCommand })

/-! ### Steps -/

/-- Rules R7, R117, R646: a step takes the next message; where it decodes, the step is the instruction's `exec`, at the
state with the message taken and the answers of the outside agents in place; with no message nothing changes. -/
def Obligations.StepRunsTheNextMessage : Prop :=
  (∀ (s : State) (r : Request) (rest : List Request) (i : Instr), s.pending = r :: rest →
    decode r.port r.message = some i →
    step s = exec i { s with inputs := r.inputs, pending := rest, result := .none }) ∧
  (∀ s : State, s.pending = [] → step s = .next s)

/-- DESIGN CHOICE, notes/assumptions/3.md: a word of the opcode table, placed by `withFetchWord`, runs as the instruction that
`decodeTableWord` answers. -/
def Obligations.TableWordRunsAsItsInstruction : Prop :=
  ∀ (nbits w : Nat) (i : Instr) (s : State), decodeTableWord nbits w = some i →
    step (s.withFetchWord nbits w) = exec i { s with result := .none }

/-- Rule R630: once a fault is recorded, no command has an effect, RESET and M_RESET included, and it is never cleared. -/
def Obligations.FaultIsAbsorbing : Prop :=
  (∀ (i : Instr) (s : State), s.fault ≠ none → exec i s = .next s) ∧
  (∀ s : State, s.fault ≠ none → ∃ env todo res, step s = .next { s with inputs := env, pending := todo, result := res })

/-! ### Reset -/

/-- Rules R653, R66: the power-on state, register by register, for every parameter set and launch tick. -/
def Obligations.PowerOnState : Prop :=
  ∀ (c : Config) (t0 : Nat),
    let s := State.powerOn c t0
    s.rtu = { st := .idle, configured := false, t15 := none, t35 := none, baud := 0#32, ifdUs := 0#32, icdUs := 0#32,
              stationAddress := 0#8, frameAddress := 0#8, bufferLen := 0, crc := 0xFFFF#16, rxCount := 0, hold0 := 0#8,
              hold1 := 0#8, holdN := 0, last := t0 % 2 ^ c.tickWidth, txIndex := 0, txCrc := 0#16, txen := false,
              buf := [] } ∧
    s.asc = { st := if c.usPerTick = 0 then .exception else .idle, stationAddress := 0#8, frameAddress := 0#8,
              bufferLen := 0, lrc := 0#8, nib := 0#4, pend := 0#8, pendValid := false, last := t0 % 2 ^ c.tickWidth,
              timeoutMs := 1000#32, timeoutTicks := s.asc.timeoutTicks, txIndex := 0, txLrc := 0#8, txen := false,
              buf := [] } ∧
    (c.usPerTick = 0 → s.asc.timeoutTicks = 0) ∧
    (c.usPerTick ≠ 0 →
      s.asc.timeoutTicks = min (max 2 ((1000000 + (c.usPerTick - 1)) / c.usPerTick)) (2 ^ c.tickWidth - 1) ∧
      s.mst.rtTicks = min ((200000 + (c.usPerTick - 1)) / c.usPerTick) (2 ^ c.tickWidth - 1) ∧
      s.mst.taTicks = min ((1000000 + (c.usPerTick - 1)) / c.usPerTick) (2 ^ c.tickWidth - 1)) ∧
    (c.usPerTick = 0 → s.mst.rtTicks = 2 ^ c.tickWidth - 1 ∧ s.mst.taTicks = 2 ^ c.tickWidth - 1) ∧
    s.mst = { st := .idle, slave := 0#8, readAddress := 0#16, writeAddress := 0#16, writeCount := 0#16,
              stamp := t0 % 2 ^ c.tickWidth, responseTimeoutMs := 200#32, rtTicks := s.mst.rtTicks,
              turnaroundMs := 1000#32, taTicks := s.mst.taTicks } ∧
    s.fault = none ∧ s.events = [] ∧ s.cfg = c

/-- Rules R242, R328, R47, R101, R111, R400, R450: the invariant holds at power-on. -/
def Obligations.InvariantAtPowerOn : Prop :=
  (∀ (c : Config) (t0 : Nat), c.wf = true → (State.powerOn c t0).Inv) ∧ State.reset.Inv

/-- Rules R242, R328, R47, R101, R111, R400, R450: every step keeps the invariant of the block. (Rule R47's range after the
CRC, where CAP is 1: DEDUCED, notes/assumptions/9.md.) -/
def Obligations.InvariantKeptByEveryStep : Prop :=
  ∀ s t : State, s.Inv → step s = .next t → t.Inv

/-- Rule R650: RESET to an RTU framer, and what an RTU framer without SETUP does with the other commands (rule R37). -/
def Obligations.RtuResetCommand : Prop :=
  (∀ s : State, s.fault = none →
    exec .rtuReset s = .next { s with
      result := .none
      rtu := { st := .idle, configured := false, t15 := none, t35 := none, baud := 0#32, ifdUs := 0#32, icdUs := 0#32,
               stationAddress := 0#8, frameAddress := 0#8, bufferLen := 0, crc := 0xFFFF#16, rxCount := 0, hold0 := 0#8,
               hold1 := 0#8, holdN := 0, last := s.now, txIndex := 0, txCrc := 0#16, txen := false, buf := s.rtu.buf } }) ∧
  (∀ (s : State) (i : Instr), s.fault = none → s.rtu.configured = false →
    (i = .rtuPoll ∨ i = .rtuBeginSend ∨ i = .rtuSend ∨ i = .rtuFinished ∨ (∃ k, i = .bufRead .rtu k) ∨
      (∃ k v, i = .bufWrite .rtu k v) ∨ ∃ a n, i = .setFrame .rtu a n) →
    exec i s = .next { s with result := .none, fault := some .notConfigured })

/-- Rule R651: RESET to an ASCII framer. -/
def Obligations.AsciiResetCommand : Prop :=
  ∀ s : State, s.fault = none →
    exec .ascReset s = .next { s with
      result := .none
      events := if s.cfg.usPerTick = 0 then s.events ++ [.cause .ascii .config] else s.events
      asc := { st := if s.cfg.usPerTick = 0 then .exception else .idle, stationAddress := 0#8, frameAddress := 0#8,
               bufferLen := 0, lrc := 0#8, nib := 0#4, pend := 0#8, pendValid := false, last := s.now,
               timeoutMs := 1000#32,
               timeoutTicks := if s.cfg.usPerTick = 0 then 0 else
                 min (max 2 ((1000000 + (s.cfg.usPerTick - 1)) / s.cfg.usPerTick)) (2 ^ s.cfg.tickWidth - 1),
               txIndex := 0, txLrc := 0#8, txen := false, buf := s.asc.buf } }

/-- Rules R652, R420, R421, R422, R474, R184: the commands of the master engine that send nothing, in every state of it. -/
def Obligations.MasterControlCommands : Prop :=
  ∀ s : State, s.fault = none → s.cfg.master ≠ none →
    let ticks (ms : Nat) : Nat :=
      if s.cfg.usPerTick = 0 then 2 ^ s.cfg.tickWidth - 1
      else min ((ms * 1000 + (s.cfg.usPerTick - 1)) / s.cfg.usPerTick) (2 ^ s.cfg.tickWidth - 1)
    exec .mReset s = .next { s with
      result := .none
      mst := { st := .idle, slave := 0#8, readAddress := 0#16, writeAddress := 0#16, writeCount := 0#16, stamp := s.now,
               responseTimeoutMs := 200#32, rtTicks := ticks 200, turnaroundMs := 1000#32, taTicks := ticks 1000 } } ∧
    (∀ ms, exec (.mSetResponseTimeout ms) s = .next { s with
      result := .none, mst := { s.mst with responseTimeoutMs := ms, rtTicks := ticks ms.toNat } }) ∧
    (∀ ms, exec (.mSetTurnaround ms) s = .next { s with
      result := .none, mst := { s.mst with turnaroundMs := ms, taTicks := ticks ms.toNat } }) ∧
    (s.mst.st = .processingError → exec .mAckError s = .next { s with
      result := .bool true, events := s.events ++ [.ack], mst := { s.mst with st := .idle } }) ∧
    (s.mst.st ≠ .processingError → exec .mAckError s = .next { s with result := .bool false }) ∧
    ∃ code : Byte, exec .mReadStatus s = .next { s with result := .masterStatus code s.mst.slave } ∧
      (s.mst.st = .idle → code = 0) ∧ (s.mst.st = .waitingForReply → code = 1) ∧
      (s.mst.st = .processingReply → code = 2) ∧ (s.mst.st = .waitingTurnaroundReply → code = 3) ∧
      (s.mst.st = .processingError → code = 4)

/-! ### Memory, checks and timing -/

/-- Rule R100: a byte of the frame buffer reads as the byte last written there; every other byte is unchanged; a PDU
written at 0 reads back; and the canonical form of the memory is kept. -/
def Obligations.BufferReadsWhatWasWritten : Prop :=
  (∀ (m : Memory) (i j : Nat) (v : Byte), (m.write i v).read j = if j = i then some v else m.read j) ∧
  (∀ (m : Memory) (p : List Byte) (j : Nat),
    (m.writeList 0 p).read j = if j < p.length then p[j]? else m.read j) ∧
  (∀ (m : Memory) (p : List Byte), (m.writeList 0 p).readRange 0 p.length = some p) ∧
  (∀ (m : Memory) (i : Nat) (v : Byte), m.wf = true → (m.write i v).wf = true)

/-- Rule R142: the residue of a frame with its own CRC is 0x0000, and a frame's residue is 0x0000 exactly when its last two
bytes are the CRC of the rest, low byte first. -/
def Obligations.CrcResidue : Prop :=
  ∀ (a : Byte) (p : List Byte),
    crc16 (a :: p ++ [lo8 (crc16 (a :: p)), hi8 (crc16 (a :: p))]) = 0x0000#16 ∧
    ∀ lo hi : Byte, crc16 (a :: p ++ [lo, hi]) = 0x0000#16 ↔ crc16 (a :: p) = be16 hi lo

/-- 95_test_vectors.md V9, 90_conflicts.md C9, rules R140 to R142, R221: flipping any one bit of any RTU ADU leaves a
residue that is not 0x0000, so the framer rejects the frame. -/
def Obligations.SingleBitErrorsAreDetected : Prop :=
  ∀ (a : Byte) (p : List Byte) (k j : Nat), k < (rtuAduOf a p).length → j < 8 →
    crc16 ((rtuAduOf a p).modify k (· ^^^ (1#8 <<< j))) ≠ 0x0000#16

/-- Rule R144: the LRC is the two's complement of the sum of the address and the PDU bytes modulo 256, and a frame is valid
exactly when the sum with its LRC is 0 modulo 256. -/
def Obligations.LrcRule : Prop :=
  ∀ (a : Byte) (p : List Byte),
    (lrcOf a p).toNat = (256 - ((a :: p).map BitVec.toNat).sum % 256) % 256 ∧
    ∀ l : Byte, l = lrcOf a p ↔ (((a :: p).map BitVec.toNat).sum + l.toNat) % 256 = 0

/-- Rules R145, R154: the hex characters, both ways. -/
def Obligations.HexCharacters : Prop :=
  (∀ v : BitVec 4, (hexchar v).toNat = if v.toNat ≤ 9 then 0x30 + v.toNat else 0x41 + v.toNat - 10) ∧
  (∀ b : Byte, hexOf b = [hexchar (b.extractLsb' 4 4), hexchar (b.extractLsb' 0 4)]) ∧
  (∀ c : Byte, (hexval c).map BitVec.toNat =
    if 0x30 ≤ c.toNat ∧ c.toNat ≤ 0x39 then some (c.toNat - 0x30)
    else if 0x41 ≤ c.toNat ∧ c.toNat ≤ 0x46 then some (c.toNat - 0x41 + 10)
    else if 0x61 ≤ c.toNat ∧ c.toNat ≤ 0x66 then some (c.toNat - 0x61 + 10) else none) ∧
  (∀ h l : BitVec 4, (byteOfNibbles h l).toNat = h.toNat * 16 + l.toNat)

/-- Rules R152, R436: coil `j` is bit `j mod 8` of data byte `j / 8`, and the unused high bits of the last byte are 0. -/
def Obligations.UnusedCoilBitsAreCleared : Prop :=
  ∀ (count : Word16) (bits : List Byte), bits.length = (count.toNat + 7) / 8 →
    (clearUnusedBits count.toNat bits).length = bits.length ∧
    ∀ j, j < 8 * bits.length →
      (clearUnusedBits count.toNat bits)[j / 8]?.map (·.getLsbD (j % 8)) =
        if j < count.toNat then bits[j / 8]?.map (·.getLsbD (j % 8)) else some false

/-- Rules R12, R209: the tick difference is the elapsed time modulo `2^W`, across the wrap of the counter. -/
def Obligations.TickDifference : Prop :=
  ∀ (c : Config) (a b : Nat),
    tickDiff c a b < 2 ^ c.tickWidth ∧
    (b + tickDiff c a b) % 2 ^ c.tickWidth = a % 2 ^ c.tickWidth ∧
    ∀ d, d < 2 ^ c.tickWidth → tickDiff c (b + d) b = d

/-- Rules R12, R201 to R204, R302, R422: `ceil_div` is the least quotient that covers, the windows of rule R202 are the
formula windows with floors of 750 and 1750 microseconds, and every tick threshold covers its time unless it saturates. -/
def Obligations.TimingConversions : Prop :=
  (∀ a b, 1 ≤ b → a ≤ ceilDiv a b * b ∧ ∀ q, a ≤ q * b → ceilDiv a b ≤ q) ∧
  (∀ (c : Config) (baud : Nat), c.fixedTimingBaud = 22000 → 1 ≤ baud →
    t15Us c baud 0 = max 750 (ceilDiv 16500000 baud) ∧ t35Us c baud 0 = max 1750 (ceilDiv 38500000 baud)) ∧
  (∀ (c : Config) (baud us : Nat), us ≠ 0 → t15Us c baud us = us ∧ t35Us c baud us = us) ∧
  (∀ (c : Config) (us : Nat), c.wf = true → c.usPerTick ≠ 0 →
    2 ≤ usToTicks c us ∧ usToTicks c us < 2 ^ c.tickWidth ∧
    (usToTicks c us = 2 ^ c.tickWidth - 1 ∨ us ≤ usToTicks c us * c.usPerTick)) ∧
  (∀ (c : Config) (ms : Nat), c.usPerTick ≠ 0 →
    msToTicks c ms = 2 ^ c.tickWidth - 1 ∨ ms * 1000 ≤ msToTicks c ms * c.usPerTick)

/-! ### Configuration of the framers -/

/-- Rules R201 to R205: SETUP, with valid and with invalid arguments. -/
def Obligations.SetupCommand : Prop :=
  ∀ (baud ifdUs icdUs : Word32) (s : State), s.fault = none →
    let r : RtuFramer :=
      { s.rtu with configured := true, baud := baud, ifdUs := ifdUs, icdUs := icdUs, txen := false, bufferLen := 0,
                   rxCount := 0, holdN := 0, txIndex := 0, last := s.now }
    let window (override fixed bits : Nat) : Nat :=
      if override ≠ 0 then override else if s.cfg.fixedTimingBaud ≤ baud.toNat then fixed
      else (bits + (baud.toNat - 1)) / baud.toNat
    let ticks (us : Nat) : Nat := min (max 2 ((us + (s.cfg.usPerTick - 1)) / s.cfg.usPerTick)) (2 ^ s.cfg.tickWidth - 1)
    (s.cfg.usPerTick = 0 ∨ (baud = 0#32 ∧ (ifdUs = 0#32 ∨ icdUs = 0#32)) →
      exec (.rtuSetup baud ifdUs icdUs) s = .next { s with
        result := .bool false, events := s.events ++ [.cause .rtu .config], rtu := { r with st := .exception } }) ∧
    (¬ (s.cfg.usPerTick = 0 ∨ (baud = 0#32 ∧ (ifdUs = 0#32 ∨ icdUs = 0#32))) →
      exec (.rtuSetup baud ifdUs icdUs) s = .next { s with
        result := .bool true
        rtu := { r with st := .idle, t15 := some (ticks (window icdUs.toNat 750 16500000)),
                        t35 := some (ticks (window ifdUs.toNat 1750 38500000)) } })

/-- Rule R302: SET_TIMEOUT. -/
def Obligations.SetTimeoutCommand : Prop :=
  ∀ (ms : Word32) (s : State), s.fault = none →
    let a : AscFramer :=
      { s.asc with
        timeoutMs := ms
        timeoutTicks :=
          min (max 2 ((ms.toNat * 1000 + (s.cfg.usPerTick - 1)) / s.cfg.usPerTick)) (2 ^ s.cfg.tickWidth - 1) }
    (s.cfg.usPerTick = 0 → exec (.ascSetTimeout ms) s = .next { s with
      result := .bool false, events := s.events ++ [.cause .ascii .config]
      asc := { s.asc with st := .exception, bufferLen := 0, txen := false } }) ∧
    (s.cfg.usPerTick ≠ 0 → s.asc.st = .exception → exec (.ascSetTimeout ms) s = .next { s with
      result := .bool true, asc := { a with st := .idle, bufferLen := 0, last := s.now } }) ∧
    (s.cfg.usPerTick ≠ 0 → s.asc.st ≠ .exception → exec (.ascSetTimeout ms) s = .next { s with
      result := .bool true, asc := a })

/-- Rules R207, R303: SET_STATION_ADDRESS, legal in every state, before SETUP included. -/
def Obligations.SetStationAddressCommands : Prop :=
  ∀ (addr : Byte) (s : State), s.fault = none →
    exec (.rtuSetStationAddress addr) s = .next { s with result := .none, rtu := { s.rtu with stationAddress := addr } } ∧
    exec (.ascSetStationAddress addr) s = .next { s with result := .none, asc := { s.asc with stationAddress := addr } }

/-! ### Buffer commands -/

/-- Rules R106, R103: BUF_READ, with its checks in their order. The host owns the buffer in `frame_ready`, `collision` and
`queue`. -/
def Obligations.BufReadCommand : Prop :=
  ∀ (u : FramerKind) (i : Word16) (s : State), s.fault = none →
    let hostOwns : Prop :=
      match u with
      | .rtu => s.rtu.st = .frameReady ∨ s.rtu.st = .collision ∨ s.rtu.st = .queue
      | .ascii => s.asc.st = .frameReady ∨ s.asc.st = .collision ∨ s.asc.st = .queue
    let fails (r : Fault) : Prop := exec (.bufRead u i) s = .next { s with result := .none, fault := some r }
    (u = .rtu ∧ s.rtu.configured = false → fails .notConfigured) ∧
    (¬ (u = .rtu ∧ s.rtu.configured = false) → ¬ hostOwns → fails .ownership) ∧
    (¬ (u = .rtu ∧ s.rtu.configured = false) → hostOwns → s.cfg.bufferMax ≤ i.toNat → fails .bufIndex) ∧
    (¬ (u = .rtu ∧ s.rtu.configured = false) → hostOwns → i.toNat < s.cfg.bufferMax → (s.buf u).read i.toNat = none →
      fails .unwritten) ∧
    (∀ v, ¬ (u = .rtu ∧ s.rtu.configured = false) → hostOwns → i.toNat < s.cfg.bufferMax →
      (s.buf u).read i.toNat = some v → exec (.bufRead u i) s = .next { s with result := .byte v })

/-- Rules R107, R103: BUF_WRITE, with its checks in their order. -/
def Obligations.BufWriteCommand : Prop :=
  ∀ (u : FramerKind) (i : Word16) (v : Byte) (s : State), s.fault = none →
    let hostOwns : Prop :=
      match u with
      | .rtu => s.rtu.st = .frameReady ∨ s.rtu.st = .collision ∨ s.rtu.st = .queue
      | .ascii => s.asc.st = .frameReady ∨ s.asc.st = .collision ∨ s.asc.st = .queue
    let fails (r : Fault) : Prop := exec (.bufWrite u i v) s = .next { s with result := .none, fault := some r }
    (u = .rtu ∧ s.rtu.configured = false → fails .notConfigured) ∧
    (¬ (u = .rtu ∧ s.rtu.configured = false) → ¬ hostOwns → fails .ownership) ∧
    (¬ (u = .rtu ∧ s.rtu.configured = false) → hostOwns → s.cfg.bufferMax ≤ i.toNat → fails .bufIndex) ∧
    (¬ (u = .rtu ∧ s.rtu.configured = false) → hostOwns → i.toNat < s.cfg.bufferMax →
      (u = .rtu → exec (.bufWrite u i v) s = .next { s with
        result := .none, rtu := { s.rtu with buf := s.rtu.buf.write i.toNat v } }) ∧
      (u = .ascii → exec (.bufWrite u i v) s = .next { s with
        result := .none, asc := { s.asc with buf := s.asc.buf.write i.toNat v } }))

/-- Rule R108: SET_FRAME, with its checks in their order. -/
def Obligations.SetFrameCommand : Prop :=
  ∀ (u : FramerKind) (addr : Byte) (n : Word16) (s : State), s.fault = none →
    let inQueue : Prop := match u with | .rtu => s.rtu.st = .queue | .ascii => s.asc.st = .queue
    let fails (r : Fault) : Prop := exec (.setFrame u addr n) s = .next { s with result := .none, fault := some r }
    (u = .rtu ∧ s.rtu.configured = false → fails .notConfigured) ∧
    (¬ (u = .rtu ∧ s.rtu.configured = false) → ¬ inQueue → fails .ownership) ∧
    (¬ (u = .rtu ∧ s.rtu.configured = false) → inQueue → min s.cfg.bufferMax 252 < n.toNat → fails .length) ∧
    (¬ (u = .rtu ∧ s.rtu.configured = false) → inQueue → n.toNat ≤ min s.cfg.bufferMax 252 →
      (u = .rtu → exec (.setFrame u addr n) s = .next { s with
        result := .none, rtu := { s.rtu with frameAddress := addr, bufferLen := n.toNat } }) ∧
      (u = .ascii → exec (.setFrame u addr n) s = .next { s with
        result := .none, asc := { s.asc with frameAddress := addr, bufferLen := n.toNat } }))

/-- Rules R172, R36, R50: READ_STATUS writes nothing and is legal in every state; the state codes are those of the tables. -/
def Obligations.ReadStatusCommands : Prop :=
  ∀ s : State, s.fault = none →
    exec (.readStatus .rtu) s = .next { s with
      result := .status
        ⟨s.rtu.st.code, s.rtu.frameAddress, BitVec.ofNat 16 s.rtu.bufferLen, s.rtu.txen, s.rtu.configured⟩ } ∧
    exec (.readStatus .ascii) s = .next { s with
      result := .status ⟨s.asc.st.code, s.asc.frameAddress, BitVec.ofNat 16 s.asc.bufferLen, s.asc.txen, true⟩ } ∧
    ([RtuSt.exception, .dump, .idle, .frameReady, .queue, .collision, .receive, .txAddr, .txPdu, .txCrc, .txDrain,
      .txWait].map fun st => st.code.toNat) = List.range 12 ∧
    ([AscSt.exception, .idle, .frameReady, .queue, .collision, .rxAddrHigh, .rxAddrLow, .rxPduHigh, .rxPduLow, .rxCr,
      .txSof, .txAddrHigh, .txAddrLow, .txPduHigh, .txPduLow, .txLrcHigh, .txLrcLow, .txCr, .txLf, .txWait].map
        fun st => st.code.toNat) = List.range 20

/-! ### Transmission -/

/-- Rules R228, R320: BEGIN_SEND of both framers. -/
def Obligations.BeginSendCommands : Prop :=
  ∀ s : State, s.fault = none →
    (s.rtu.configured = false → exec .rtuBeginSend s = .next { s with result := .none, fault := some .notConfigured }) ∧
    (s.rtu.configured = true → s.rtu.st = .idle ∨ s.rtu.st = .frameReady →
      exec .rtuBeginSend s = .next { s with result := .bool true, rtu := { s.rtu with st := .queue } }) ∧
    (s.rtu.configured = true → ¬ (s.rtu.st = .idle ∨ s.rtu.st = .frameReady) →
      exec .rtuBeginSend s = .next { s with result := .bool false }) ∧
    (s.asc.st = .idle ∨ s.asc.st = .frameReady →
      exec .ascBeginSend s = .next { s with result := .bool true, asc := { s.asc with st := .queue } }) ∧
    (¬ (s.asc.st = .idle ∨ s.asc.st = .frameReady) → exec .ascBeginSend s = .next { s with result := .bool false })

/-- Rules R238, R324: FINISHED of both framers. -/
def Obligations.FinishedCommands : Prop :=
  ∀ s : State, s.fault = none →
    (s.rtu.configured = false → exec .rtuFinished s = .next { s with result := .none, fault := some .notConfigured }) ∧
    (s.rtu.configured = true → s.rtu.st ∈ [RtuSt.receive, .frameReady, .collision, .queue] →
      exec .rtuFinished s = .next { s with result := .none, rtu := { s.rtu with st := .idle, bufferLen := 0 } }) ∧
    (s.rtu.configured = true → s.rtu.st ∉ [RtuSt.receive, .frameReady, .collision, .queue] →
      exec .rtuFinished s = .next { s with result := .none }) ∧
    (s.asc.st ∈ [AscSt.rxAddrHigh, .rxAddrLow, .rxPduHigh, .rxPduLow, .rxCr, .frameReady, .collision, .queue] →
      exec .ascFinished s = .next { s with result := .none, asc := { s.asc with st := .idle, bufferLen := 0 } }) ∧
    (s.asc.st ∉ [AscSt.rxAddrHigh, .rxAddrLow, .rxPduHigh, .rxPduLow, .rxCr, .frameReady, .collision, .queue] →
      exec .ascFinished s = .next { s with result := .none })

/-- Rules R230, R321, R35: SEND is refused outside `queue` and for an empty PDU, and faults on a PDU byte that nothing has
written. -/
def Obligations.SendRefusals : Prop :=
  ∀ s : State, s.fault = none →
    (s.rtu.configured = false → exec .rtuSend s = .next { s with result := .none, fault := some .notConfigured }) ∧
    (s.rtu.configured = true → s.rtu.st ≠ .queue ∨ s.rtu.bufferLen = 0 →
      exec .rtuSend s = .next { s with result := .bool false }) ∧
    (s.rtu.configured = true → s.rtu.st = .queue → (∃ i, i < s.rtu.bufferLen ∧ s.rtu.buf.read i = none) →
      exec .rtuSend s = .next { s with result := .none, fault := some .unwritten }) ∧
    (s.asc.st ≠ .queue ∨ s.asc.bufferLen = 0 → exec .ascSend s = .next { s with result := .bool false }) ∧
    (s.asc.st = .queue → (∃ i, i < s.asc.bufferLen ∧ s.asc.buf.read i = none) →
      exec .ascSend s = .next { s with result := .none, fault := some .unwritten })

/-- Rules R230, R231, R233, R234, R236: SEND of an RTU framer, for every answer of the stream: the line gets the first
bytes of the ADU, in order, as many as the stream accepts. (`rtu.tx_index` after the CRC, where CAP is 1: DEDUCED,
notes/assumptions/9.md.) -/
def Obligations.RtuSendTransmitsTheAdu : Prop :=
  ∀ (s : State) (p : List Byte), s.fault = none → s.rtu.configured = true → s.rtu.st = .queue → 1 ≤ s.rtu.bufferLen →
    s.rtu.bufferLen ≤ s.cfg.bufferMax → s.rtu.buf.readRange 0 s.rtu.bufferLen = some p →
    exec .rtuSend s = .next { ({ s with rtu := { s.rtu with
        txCrc := crc16 (s.rtu.frameAddress :: p), txen := true } }.rtuOffered 0 s.rtu.frameAddress p) with
      result := .bool true }

/-- Rules R321 to R323, R325, R326: SEND of an ASCII framer, for every answer of the stream. -/
def Obligations.AsciiSendTransmitsTheAdu : Prop :=
  ∀ (s : State) (p : List Byte), s.fault = none → s.asc.st = .queue → 1 ≤ s.asc.bufferLen →
    s.asc.bufferLen ≤ s.cfg.bufferMax → s.asc.buf.readRange 0 s.asc.bufferLen = some p →
    exec .ascSend s = .next { ({ s with asc := { s.asc with
        txLrc := lrcOf s.asc.frameAddress p, txen := true } }.ascOffered 0 s.asc.frameAddress p) with
      result := .bool true }

/-- Rules R211, R214, R218, R226, R231, R233 to R236, R240: POLL of an RTU framer that transmits drops the bytes that it
reads (each restamps `rtu.last`), records a read error, and goes on with the ADU at the byte where it stood, none repeated
and none skipped. (`rtu.tx_index` after the CRC, where CAP is 1: DEDUCED, notes/assumptions/9.md.) -/
def Obligations.RtuPollResumesTheAdu : Prop :=
  ∀ (s : State) (p : List Byte) (m : Nat), s.fault = none → s.rtu.configured = true → 1 ≤ s.rtu.bufferLen →
    s.rtu.bufferLen ≤ s.cfg.bufferMax → s.rtu.buf.readRange 0 s.rtu.bufferLen = some p → m ≤ p.length + 3 →
    s.rtu.st = (rtuSentAt s.cfg p.length m).1 → s.rtu.txIndex = (rtuSentAt s.cfg p.length m).2 →
    s.rtu.txCrc = crc16 (s.rtu.frameAddress :: p) →
    let t := s.rtuHeard.rtuOffered m s.rtu.frameAddress p
    exec .rtuPoll s = .next { t with
      result := .ticks (if t.rtu.st = .idle then 0 else if t.rtu.st = .txWait then s.rtu.t35.getD 0 else 1) }

/-- Rules R305, R307, R314, R316, R317, R322, R323, R325, R326: POLL of an ASCII framer that transmits drops the characters
that it reads, records a read error, and goes on at the character where it stood. -/
def Obligations.AsciiPollResumesTheAdu : Prop :=
  ∀ (s : State) (p : List Byte) (m : Nat), s.fault = none → 1 ≤ s.asc.bufferLen →
    s.asc.bufferLen ≤ s.cfg.bufferMax → s.asc.buf.readRange 0 s.asc.bufferLen = some p → m ≤ 2 * p.length + 7 →
    s.asc.st = (ascSentAt p.length m).1 → s.asc.txIndex = (ascSentAt p.length m).2 →
    s.asc.txLrc = lrcOf s.asc.frameAddress p →
    let t := s.ascHeard.ascOffered m s.asc.frameAddress p
    exec .ascPoll s = .next { t with result := .ticks (if t.asc.st = .idle then 0 else 1) }

/-! ### POLL -/

/-- Rules R211, R226, R242: under the invariant, a configured RTU framer's POLL runs to its end for every answer of the
stream, and returns the ticks to the next deadline, `W` bits wide (rule R170): 0 exactly where none is pending. -/
def Obligations.RtuPollAnswersItsDeadline : Prop :=
  ∀ s : State, s.Inv → s.fault = none → s.rtu.configured = true →
    ∃ (t : State) (d : Nat), exec .rtuPoll s = .next t ∧ t.fault = none ∧ t.result = .ticks d ∧ d < 2 ^ t.cfg.tickWidth ∧
      (let e := tickDiff t.cfg s.now t.rtu.last
       (t.rtu.st ∈ [RtuSt.exception, .idle, .frameReady, .queue] → d = 0) ∧
       (t.rtu.st ∈ [RtuSt.txAddr, .txPdu, .txCrc, .txDrain] → d = 1) ∧
       (t.rtu.st ∈ [RtuSt.dump, .collision, .txWait] → 1 ≤ d ∧ t.rtu.t35 = some (e + d)) ∧
       (t.rtu.st = .receive → 1 ≤ d ∧
         ∃ t15 t35, t.rtu.t15 = some t15 ∧ t.rtu.t35 = some t35 ∧ e + d = if e < t15 then t15 else t35))

/-- Rules R305, R316, R328, R170: the same for the ASCII framer, which needs no configuration. -/
def Obligations.AsciiPollAnswersItsDeadline : Prop :=
  ∀ s : State, s.Inv → s.fault = none →
    ∃ (t : State) (d : Nat), exec .ascPoll s = .next t ∧ t.fault = none ∧ t.result = .ticks d ∧ d < 2 ^ t.cfg.tickWidth ∧
      (t.asc.st ∈ [AscSt.exception, .idle, .frameReady, .queue] → d = 0) ∧
      (t.asc.st.transmitting = true → d = 1) ∧
      (t.asc.st.receiving = true ∨ t.asc.st = .collision →
        1 ≤ d ∧ tickDiff t.cfg s.now t.asc.last + d = t.asc.timeoutTicks)

/-- Rules R211, R241, R305, R327: POLL in `exception` returns 0 and touches nothing, and so does POLL in `idle` where the
stream has nothing. -/
def Obligations.PollWithNothingToDo : Prop :=
  ∀ s : State, s.fault = none →
    (s.rtu.configured = true → s.rtu.st = .exception ∨ (s.rtu.st = .idle ∧ s.inputs.rx = [] ∧ s.inputs.rxError = false) →
      exec .rtuPoll s = .next { s with result := .ticks 0 }) ∧
    (s.asc.st = .exception ∨ (s.asc.st = .idle ∧ s.inputs.rx = [] ∧ s.inputs.rxError = false) →
      exec .ascPoll s = .next { s with result := .ticks 0 })

/-- Rules R210, R212, R214 to R219, R227, R606 (c): what one byte does to an RTU framer that does not transmit, read by a
POLL before T3.5 of silence, or after it, where the expiry is applied first. (A framer that transmits:
`RtuPollResumesTheAdu`. The end of a frame on a framer bound to the master engine: `MasterFrameReadyStep`, and
`PollReadsInOrder` for the bytes after it.) -/
def Obligations.RtuByteRules : Prop :=
  ∀ (s : State) (b : Byte) (t15 t35 : Nat), s.fault = none → s.rtu.configured = true → s.rtu.t15 = some t15 →
    s.rtu.t35 = some t35 → 0 < t15 → s.inputs.rx = [b] → s.inputs.rxError = false →
    let gap := tickDiff s.cfg s.now s.rtu.last
    let r : RtuFramer := { s.rtu with last := s.now }
    let counted : RtuFramer := { r with crc := crcUpdate s.rtu.crc b, rxCount := s.rtu.rxCount + 1 }
    let starts (ev : List Event) : Prop := exec .rtuPoll s = .next { s with
      result := .ticks t15, events := s.events ++ ev
      rtu := { r with frameAddress := b, crc := crcUpdate 0xFFFF#16 b, rxCount := 1, holdN := 0, bufferLen := 0,
                      st := .receive } }
    let collides (ev : List Event) : Prop := exec .rtuPoll s = .next { s with
      result := .ticks t35, events := s.events ++ ev ++ [.cause .rtu .collision], rtu := { r with st := .collision } }
    let passes : Prop :=
      s.rtu.stationAddress = 0#8 ∨ s.rtu.frameAddress = s.rtu.stationAddress ∨ s.rtu.frameAddress = 0#8
    (s.rtu.st = .idle → starts []) ∧
    (s.rtu.st = .receive → gap < t35 → t15 < gap → exec .rtuPoll s = .next { s with
      result := .ticks t35, events := s.events ++ [.cause .rtu .interchar]
      rtu := { r with st := .dump, bufferLen := 0 } }) ∧
    (s.rtu.st = .receive → gap < t35 → gap ≤ t15 → s.rtu.holdN = 0 → exec .rtuPoll s = .next { s with
      result := .ticks t15, rtu := { counted with hold0 := b, holdN := 1 } }) ∧
    (s.rtu.st = .receive → gap < t35 → gap ≤ t15 → s.rtu.holdN = 1 → exec .rtuPoll s = .next { s with
      result := .ticks t15, rtu := { counted with hold1 := b, holdN := 2 } }) ∧
    (s.rtu.st = .receive → gap < t35 → gap ≤ t15 → s.rtu.holdN = 2 → s.rtu.bufferLen < cap s.cfg →
      exec .rtuPoll s = .next { s with
        result := .ticks t15
        rtu := { counted with hold0 := s.rtu.hold1, hold1 := b, bufferLen := s.rtu.bufferLen + 1
                              buf := s.rtu.buf.write s.rtu.bufferLen s.rtu.hold0 } }) ∧
    (s.rtu.st = .receive → gap < t35 → gap ≤ t15 → s.rtu.holdN = 2 → s.rtu.bufferLen = cap s.cfg →
      exec .rtuPoll s = .next { s with
        result := .ticks t35, events := s.events ++ [.cause .rtu .overflow]
        rtu := { r with st := .dump, bufferLen := 0 } }) ∧
    (s.rtu.st = .frameReady → collides []) ∧
    (s.rtu.st = .dump ∨ s.rtu.st = .collision ∨ s.rtu.st = .txWait → gap < t35 → exec .rtuPoll s = .next { s with
      result := .ticks t35, rtu := r }) ∧
    (s.rtu.st = .queue → exec .rtuPoll s = .next { s with result := .ticks 0, rtu := r }) ∧
    (s.rtu.st = .dump ∨ s.rtu.st = .txWait → t35 ≤ gap → starts []) ∧
    (s.rtu.st = .collision → t35 ≤ gap → s.cfg.master ≠ some .rtu → collides []) ∧
    (s.rtu.st = .receive → t35 ≤ gap → s.rtu.rxCount < 3 + s.cfg.minPdu → starts [.cause .rtu .short]) ∧
    (s.rtu.st = .receive → t35 ≤ gap → 3 + s.cfg.minPdu ≤ s.rtu.rxCount → s.rtu.crc ≠ 0x0000#16 →
      starts [.cause .rtu .crc]) ∧
    (s.rtu.st = .receive → t35 ≤ gap → 3 + s.cfg.minPdu ≤ s.rtu.rxCount → s.rtu.crc = 0x0000#16 → ¬ passes →
      starts [.cause .rtu .address]) ∧
    (s.rtu.st = .receive → t35 ≤ gap → 3 + s.cfg.minPdu ≤ s.rtu.rxCount → s.rtu.crc = 0x0000#16 → passes →
      s.cfg.master ≠ some .rtu → collides [.frameReady .rtu])

/-- Rules R212, R223 to R226: T3.5 of silence ends `dump`, `collision` and `tx_wait`; before that, a POLL that reads nothing
changes nothing and answers what is left. -/
def Obligations.RtuSilenceRules : Prop :=
  ∀ (s : State) (t15 t35 : Nat), s.fault = none → s.rtu.configured = true → s.rtu.t15 = some t15 →
    s.rtu.t35 = some t35 → s.inputs.rx = [] → s.inputs.rxError = false →
    let e := tickDiff s.cfg s.now s.rtu.last
    (s.rtu.st = .dump → t35 ≤ e → exec .rtuPoll s = .next { s with
      result := .ticks 0, rtu := { s.rtu with st := .idle } }) ∧
    (s.rtu.st = .collision → t35 ≤ e → s.cfg.master ≠ some .rtu → exec .rtuPoll s = .next { s with
      result := .ticks 0, rtu := { s.rtu with st := .frameReady } }) ∧
    (s.rtu.st = .txWait → t35 ≤ e → exec .rtuPoll s = .next { s with
      result := .ticks 0, rtu := { s.rtu with st := .idle, bufferLen := 0 } }) ∧
    (s.rtu.st = .dump ∨ s.rtu.st = .collision ∨ s.rtu.st = .txWait → e < t35 → exec .rtuPoll s = .next { s with
      result := .ticks (t35 - e) }) ∧
    (s.rtu.st = .receive → e < t35 → exec .rtuPoll s = .next { s with
      result := .ticks (if e < t15 then t15 - e else t35 - e) }) ∧
    (s.rtu.st = .frameReady ∨ s.rtu.st = .queue → exec .rtuPoll s = .next { s with result := .ticks 0 })

/-- Rules R220 to R222, R606 (d): the end of an RTU frame after T3.5 of silence: too short, a wrong residue, a wrong address,
or (where no master engine is bound to the framer) a valid frame, checked in this order. -/
def Obligations.RtuFrameEnd : Prop :=
  ∀ (s : State) (t35 : Nat), s.fault = none → s.rtu.configured = true → s.rtu.st = .receive → s.rtu.t35 = some t35 →
    t35 ≤ tickDiff s.cfg s.now s.rtu.last → s.inputs.rx = [] → s.inputs.rxError = false →
    let rejected (c : Cause) : Prop := exec .rtuPoll s = .next { s with
      result := .ticks 0, events := s.events ++ [.cause .rtu c], rtu := { s.rtu with st := .idle, bufferLen := 0 } }
    let passes : Prop :=
      s.rtu.stationAddress = 0#8 ∨ s.rtu.frameAddress = s.rtu.stationAddress ∨ s.rtu.frameAddress = 0#8
    (s.rtu.rxCount < 3 + s.cfg.minPdu → rejected .short) ∧
    (3 + s.cfg.minPdu ≤ s.rtu.rxCount → s.rtu.crc ≠ 0x0000#16 → rejected .crc) ∧
    (3 + s.cfg.minPdu ≤ s.rtu.rxCount → s.rtu.crc = 0x0000#16 → ¬ passes → rejected .address) ∧
    (3 + s.cfg.minPdu ≤ s.rtu.rxCount → s.rtu.crc = 0x0000#16 → passes → s.cfg.master ≠ some .rtu →
      exec .rtuPoll s = .next { s with
        result := .ticks 0, events := s.events ++ [.frameReady .rtu], rtu := { s.rtu with st := .frameReady } })

/-- Rules R221, R312, R450 to R455, R606 (h), R460 to R469: the frame-ready step, at the end of a valid frame on the framer
that the master engine is bound to, of either kind; and how a reply PDU decodes, whatever its bytes: none is MALFORMED. -/
def Obligations.MasterFrameReadyStep : Prop :=
  (∀ (u : FramerKind) (s : State) (p : List Byte), s.fault = none → s.cfg.master = some u → s.endsFrame u →
    (s.buf u).readRange 0 (s.bufferLen u) = some p →
    let taken (ev : List Event) (m : Master) : Prop :=
      match u with
      | .rtu => exec .rtuPoll s = .next { s with
          result := .ticks 0, events := s.events ++ .frameReady .rtu :: ev, mst := m
          rtu := { s.rtu with st := .idle, bufferLen := 0 } }
      | .ascii => exec .ascPoll s = .next { s with
          result := .ticks 0, events := s.events ++ .frameReady .ascii :: ev, mst := m
          asc := { s.asc with st := .idle, bufferLen := 0, last := s.now } }
    (s.bufferLen u = 0 ∨ s.mst.st ≠ .waitingForReply → taken [.unsolicited] s.mst) ∧
    (s.bufferLen u ≠ 0 → s.mst.st = .waitingForReply → s.frameAddress u ≠ s.mst.slave →
      taken [.stale] { s.mst with stamp := s.now }) ∧
    (s.bufferLen u ≠ 0 → s.mst.st = .waitingForReply → s.frameAddress u = s.mst.slave → decodeReply s.mst p = none →
      taken [.malformed] { s.mst with st := .processingError }) ∧
    (∀ r, s.bufferLen u ≠ 0 → s.mst.st = .waitingForReply → s.frameAddress u = s.mst.slave → decodeReply s.mst p = some r →
      taken [r, .verdict s.inputs.verdict]
        { s.mst with st := if s.inputs.verdict then .idle else .processingError })) ∧
  (∀ (m : Master) (fc : Byte) (d : List Byte),
    let values (data : List Byte) : List Word16 :=
      (List.range (data.length / 2)).map fun k => be16 (data.getD (2 * k) 0#8) (data.getD (2 * k + 1) 0#8)
    let registers (r : List Word16 → Event) : Option Event :=
      match d with
      | bc :: data => if 2 ≤ bc.toNat ∧ bc.toNat % 2 = 0 ∧ data.length = bc.toNat then some (r (values data)) else none
      | [] => none
    let words (r : Word16 → Word16 → Option Event) : Option Event :=
      match d with
      | [ah, al, vh, vl] => r (be16 ah al) (be16 vh vl)
      | _ => none
    (0x80 ≤ fc.toNat → decodeReply m (fc :: d) =
      match d with
      | [code] => some (.masterException (fc.extractLsb' 0 7) code)
      | _ => none) ∧
    (fc = 0x01#8 ∨ fc = 0x02#8 → decodeReply m (fc :: d) =
      match d with
      | bc :: data =>
        if 1 ≤ bc.toNat ∧ data.length = bc.toNat then some (.responseBits fc m.readAddress bc.toNat data) else none
      | [] => none) ∧
    (fc = 0x03#8 ∨ fc = 0x04#8 → decodeReply m (fc :: d) =
      registers fun vs => .responseRegisters fc m.readAddress vs.length vs) ∧
    (fc = 0x05#8 → decodeReply m (fc :: d) =
      words fun a v => if v = 0xFF00#16 ∨ v = 0x0000#16 then some (.responseCoil a (v = 0xFF00#16)) else none) ∧
    (fc = 0x06#8 → decodeReply m (fc :: d) = words fun a v => some (.responseRegister a v)) ∧
    (fc = 0x0F#8 ∨ fc = 0x10#8 → decodeReply m (fc :: d) =
      words fun a q => if q = m.writeCount then some (.responseCount fc a q) else none) ∧
    (fc = 0x17#8 → decodeReply m (fc :: d) =
      registers fun vs => .responseReadWrite m.readAddress vs.length vs m.writeAddress m.writeCount) ∧
    (fc.toNat < 0x80 → fc.toNat ∉ [0x01, 0x02, 0x03, 0x04, 0x05, 0x06, 0x0F, 0x10, 0x17] →
      decodeReply m (fc :: d) = none))

/-- Rules R305 to R311, R314 to R316, R606 (c): what one character does to an ASCII framer that does not transmit, read by a
POLL before the timeout, or after it, where the expiry is applied first. (A framer that transmits:
`AsciiPollResumesTheAdu`; LF in `rx_cr`: `AsciiFrameEnd`.) -/
def Obligations.AsciiCharacterRules : Prop :=
  ∀ (s : State) (c : Byte), s.fault = none → s.inputs.rx = [c] → s.inputs.rxError = false →
    let e := tickDiff s.cfg s.now s.asc.last
    let w := s.asc.timeoutTicks
    let a : AscFramer := { s.asc with last := s.now }
    let goes (d : Nat) (ev : List Event) (a' : AscFramer) : Prop :=
      exec .ascPoll s = .next { s with result := .ticks d, events := s.events ++ ev, asc := a' }
    let start : AscFramer := { a with lrc := 0#8, bufferLen := 0, pendValid := false, st := .rxAddrHigh }
    let dropped : AscFramer := { a with st := .idle, bufferLen := 0 }
    (s.asc.st = .idle → c = 0x3A#8 → goes w [] start) ∧
    (s.asc.st = .idle → c ≠ 0x3A#8 → goes 0 [] a) ∧
    (s.asc.st.receiving = true → e < w → c = 0x3A#8 → goes w [.cause .ascii .sof] start) ∧
    (∀ h, hexval c = some h → e < w →
      (s.asc.st = .rxAddrHigh → goes w [] { a with nib := h, st := .rxAddrLow }) ∧
      (s.asc.st = .rxAddrLow → goes w [] { a with
        frameAddress := s.asc.nib ++ h, lrc := s.asc.lrc + (s.asc.nib ++ h), st := .rxPduHigh }) ∧
      (s.asc.st = .rxPduHigh → goes w [] { a with nib := h, st := .rxPduLow }) ∧
      (s.asc.st = .rxPduLow → s.asc.pendValid = false → goes w [] { a with
        pend := s.asc.nib ++ h, pendValid := true, st := .rxPduHigh }) ∧
      (s.asc.st = .rxPduLow → s.asc.pendValid = true → s.asc.bufferLen < cap s.cfg → goes w [] { a with
        buf := s.asc.buf.write s.asc.bufferLen s.asc.pend, bufferLen := s.asc.bufferLen + 1
        lrc := s.asc.lrc + s.asc.pend, pend := s.asc.nib ++ h, pendValid := true, st := .rxPduHigh }) ∧
      (s.asc.st = .rxPduLow → s.asc.pendValid = true → s.asc.bufferLen = cap s.cfg →
        goes 0 [.cause .ascii .overflow] dropped)) ∧
    (s.asc.st = .rxPduHigh → e < w → c = 0x0D#8 → goes w [] { a with st := .rxCr }) ∧
    (s.asc.st = .rxAddrHigh ∨ s.asc.st = .rxAddrLow ∨ s.asc.st = .rxPduLow ∨ (s.asc.st = .rxPduHigh ∧ c ≠ 0x0D#8) →
      e < w → hexval c = none → c ≠ 0x3A#8 → goes 0 [.cause .ascii .hex] dropped) ∧
    (s.asc.st = .rxCr → e < w → c ≠ 0x0A#8 → c ≠ 0x3A#8 → goes 0 [.cause .ascii .hex] dropped) ∧
    (s.asc.st = .frameReady → goes w [.cause .ascii .collision] { a with st := .collision }) ∧
    (s.asc.st = .collision → e < w → goes w [] a) ∧
    (s.asc.st = .queue → goes 0 [] a) ∧
    (s.asc.st.receiving = true → w ≤ e → c = 0x3A#8 → goes w [.cause .ascii .asciiTimeout] start) ∧
    (s.asc.st.receiving = true → w ≤ e → c ≠ 0x3A#8 → goes 0 [.cause .ascii .asciiTimeout] dropped) ∧
    (s.asc.st = .collision → w ≤ e → s.cfg.master ≠ some .ascii →
      goes w [.cause .ascii .collision] { a with st := .collision })

/-- Rules R306, R312, R313, R606 (e): the end of an ASCII frame at LF, and the timeout of a frame and of a collision. A valid
frame, and the end of a collision, are given where no master engine is bound to the framer. -/
def Obligations.AsciiFrameEnd : Prop :=
  ∀ s : State, s.fault = none → s.inputs.rxError = false →
    let e := tickDiff s.cfg s.now s.asc.last
    let lf : Prop := s.asc.st = .rxCr ∧ s.inputs.rx = [0x0A#8] ∧ e < s.asc.timeoutTicks
    let long : Prop := s.asc.pendValid = true ∧ s.cfg.minPdu ≤ s.asc.bufferLen
    let passes : Prop :=
      s.asc.stationAddress = 0#8 ∨ s.asc.frameAddress = s.asc.stationAddress ∨ s.asc.frameAddress = 0#8
    let ends (c : Event) (a : AscFramer) : Prop :=
      exec .ascPoll s = .next { s with result := .ticks 0, events := s.events ++ [c], asc := a }
    let discarded : AscFramer := { s.asc with st := .idle, bufferLen := 0, last := s.now }
    (lf → ¬ long → ends (.cause .ascii .short) discarded) ∧
    (lf → long → s.asc.lrc + s.asc.pend ≠ 0#8 → ends (.cause .ascii .lrc) discarded) ∧
    (lf → long → s.asc.lrc + s.asc.pend = 0#8 → ¬ passes → ends (.cause .ascii .address) discarded) ∧
    (lf → long → s.asc.lrc + s.asc.pend = 0#8 → passes → s.cfg.master ≠ some .ascii →
      ends (.frameReady .ascii) { s.asc with st := .frameReady, last := s.now }) ∧
    (s.inputs.rx = [] → s.asc.timeoutTicks ≤ e → s.asc.st.receiving = true →
      ends (.cause .ascii .asciiTimeout) { s.asc with st := .idle, bufferLen := 0 }) ∧
    (s.inputs.rx = [] → s.asc.timeoutTicks ≤ e → s.asc.st = .collision → s.cfg.master ≠ some .ascii →
      exec .ascPoll s = .next { s with result := .ticks 0, asc := { s.asc with st := .frameReady } }) ∧
    (s.inputs.rx = [] → e < s.asc.timeoutTicks → s.asc.st.receiving = true ∨ s.asc.st = .collision →
      exec .ascPoll s = .next { s with result := .ticks (s.asc.timeoutTicks - e) })

/-- Rules R240, R317: a read error, on a framer that does not transmit. Where a timer of the framer's state acts, it is given
before the timer expires. (A framer that transmits: `RtuPollResumesTheAdu`, `AsciiPollResumesTheAdu`; an error after an
expiry, or after bytes read in the same POLL: `PollReadsInOrder`.) -/
def Obligations.ReadErrors : Prop :=
  ∀ s : State, s.fault = none → s.inputs.rx = [] → s.inputs.rxError = true →
    let e := tickDiff s.cfg s.now s.rtu.last
    let dumped (t35 : Nat) : Prop := exec .rtuPoll s = .next { s with
      result := .ticks t35, events := s.events ++ [.cause .rtu .rxTransport]
      rtu := { s.rtu with st := .dump, bufferLen := 0, last := s.now } }
    (∀ t35, s.rtu.configured = true → s.rtu.t35 = some t35 →
      (s.rtu.st = .idle → dumped t35) ∧
      (s.rtu.st = .receive ∨ s.rtu.st = .dump → e < t35 → dumped t35) ∧
      (s.rtu.st = .collision ∨ s.rtu.st = .txWait → e < t35 → exec .rtuPoll s = .next { s with
        result := .ticks (t35 - e), events := s.events ++ [.cause .rtu .rxTransport] })) ∧
    (s.rtu.configured = true → s.rtu.st = .frameReady ∨ s.rtu.st = .queue → exec .rtuPoll s = .next { s with
      result := .ticks 0, events := s.events ++ [.cause .rtu .rxTransport] }) ∧
    (s.asc.st.receiving = true → tickDiff s.cfg s.now s.asc.last < s.asc.timeoutTicks → exec .ascPoll s = .next { s with
      result := .ticks 0, events := s.events ++ [.cause .ascii .rxTransport]
      asc := { s.asc with st := .idle, bufferLen := 0 } }) ∧
    (s.asc.st = .idle ∨ s.asc.st = .frameReady ∨ s.asc.st = .queue → exec .ascPoll s = .next { s with
      result := .ticks 0, events := s.events ++ [.cause .ascii .rxTransport] }) ∧
    (s.asc.st = .collision → tickDiff s.cfg s.now s.asc.last < s.asc.timeoutTicks → exec .ascPoll s = .next { s with
      result := .ticks (s.asc.timeoutTicks - tickDiff s.cfg s.now s.asc.last)
      events := s.events ++ [.cause .ascii .rxTransport] })

/-- Rules R211, R213, R305, R606 (c): a POLL reads its stream in order. Of a framer that does not transmit, the POLL that
reads `bs` and then `cs` (and an ERROR after them, or none) does what the POLL that reads `bs` and, at the same tick, a
POLL that reads `cs` do; with `bs` empty, the expiries come before the bytes. A threshold of 0 is no tick count (rules
R38, R56). -/
def Obligations.PollReadsInOrder : Prop :=
  ∀ (s : State) (bs cs : List Byte) (err : Bool),
    let inOrder (i : Instr) : Prop :=
      ∃ t t', exec i (s.hearing bs false) = .next t ∧ exec i (t.hearing cs err) = .next t' ∧
        exec i (s.hearing (bs ++ cs) err) = .next (t'.hearing (bs ++ cs) err)
    (s.rtu.st.transmitting = false → s.rtu.t35 ≠ some 0 → inOrder .rtuPoll) ∧
    (s.asc.st.transmitting = false → s.asc.timeoutTicks ≠ 0 → inOrder .ascPoll)

/-! ### Whole frames on a line -/

/-- Rules R140, R141, R216, R217, R220 to R222, R227, R450 to R455: a whole RTU ADU arrives at an idle framer (that it arrives
in one command, and its silence with it: DESIGN CHOICE, notes/assumptions/2.md). It is received if its PDU fits, is long
enough, its CRC is right and its address passes; every other frame ends in `idle` with the cause of rule R606 (d). A frame
received is held for the host, or taken by the master engine where it is bound to the framer. -/
def Obligations.RtuAduIsReceived : Prop :=
  ∀ (a lo hi : Byte) (p : List Byte) (s : State) (t35 : Nat), Instr.wf (.rtuAdu a p lo hi) = true → s.fault = none →
    s.rtu.st = .idle → s.rtu.configured = true → s.rtu.t35 = some t35 → t35 < 2 ^ s.cfg.tickWidth →
    let passes : Prop := s.rtu.stationAddress = 0#8 ∨ a = s.rtu.stationAddress ∨ a = 0#8
    let r : RtuFramer :=
      { s.rtu with frameAddress := a, crc := crc16 (a :: p ++ [lo, hi]), rxCount := p.length + 3, hold0 := lo, hold1 := hi
                   holdN := 2, last := s.now, buf := s.rtu.buf.writeList 0 p, st := .idle, bufferLen := 0 }
    let ends (ev : List Event) (r : RtuFramer) (m : Master) : Prop :=
      exec (.rtuAdu a p lo hi) s = .next { s with result := .ticks 0, events := s.events ++ ev, rtu := r, mst := m }
    let received : Prop := p.length ≤ cap s.cfg ∧ s.cfg.minPdu ≤ p.length ∧ crc16 (a :: p) = be16 hi lo ∧ passes
    let taken := s.frameTaken a p ((s.inputs.now + t35) % 2 ^ s.cfg.tickWidth)
    (p.length ≤ cap s.cfg → p.length < s.cfg.minPdu → ends [.cause .rtu .short] r s.mst) ∧
    (p.length ≤ cap s.cfg → s.cfg.minPdu ≤ p.length → crc16 (a :: p) ≠ be16 hi lo → ends [.cause .rtu .crc] r s.mst) ∧
    (p.length ≤ cap s.cfg → s.cfg.minPdu ≤ p.length → crc16 (a :: p) = be16 hi lo → ¬ passes →
      ends [.cause .rtu .address] r s.mst) ∧
    (received → s.cfg.master ≠ some .rtu →
      ends [.frameReady .rtu] { r with st := .frameReady, bufferLen := p.length } s.mst) ∧
    (received → s.cfg.master = some .rtu → ends (.frameReady .rtu :: taken.1) r taken.2) ∧
    (cap s.cfg < p.length → ∃ t, exec (.rtuAdu a p lo hi) s = .next t ∧ t.fault = none ∧ t.result = .ticks 0 ∧
      t.events = s.events ++ [.cause .rtu .overflow] ∧ t.rtu.st = .idle ∧ t.rtu.bufferLen = 0 ∧ t.mst = s.mst ∧
      ∀ k, cap s.cfg ≤ k → t.rtu.buf.read k = s.rtu.buf.read k)

/-- Rules R143 to R145, R309 to R315, R450 to R455: a whole ASCII ADU arrives at an idle framer (that it arrives in one
command: DESIGN CHOICE, notes/assumptions/2.md), with the same outcomes. -/
def Obligations.AsciiAduIsReceived : Prop :=
  ∀ (a lrc : Byte) (p : List Byte) (s : State), Instr.wf (.asciiAdu a p lrc) = true → s.fault = none → s.asc.st = .idle →
    let passes : Prop := s.asc.stationAddress = 0#8 ∨ a = s.asc.stationAddress ∨ a = 0#8
    let r : AscFramer :=
      { s.asc with frameAddress := a, lrc := byteSum (a :: p), nib := lrc.extractLsb' 4 4, pend := lrc, pendValid := true
                   last := s.now, buf := s.asc.buf.writeList 0 p, st := .idle, bufferLen := 0 }
    let ends (ev : List Event) (r : AscFramer) (m : Master) : Prop :=
      exec (.asciiAdu a p lrc) s = .next { s with result := .ticks 0, events := s.events ++ ev, asc := r, mst := m }
    let received : Prop := p.length ≤ cap s.cfg ∧ s.cfg.minPdu ≤ p.length ∧ lrc = lrcOf a p ∧ passes
    let taken := s.frameTaken a p s.now
    (p.length ≤ cap s.cfg → p.length < s.cfg.minPdu → ends [.cause .ascii .short] r s.mst) ∧
    (p.length ≤ cap s.cfg → s.cfg.minPdu ≤ p.length → lrc ≠ lrcOf a p → ends [.cause .ascii .lrc] r s.mst) ∧
    (p.length ≤ cap s.cfg → s.cfg.minPdu ≤ p.length → lrc = lrcOf a p → ¬ passes →
      ends [.cause .ascii .address] r s.mst) ∧
    (received → s.cfg.master ≠ some .ascii →
      ends [.frameReady .ascii] { r with st := .frameReady, bufferLen := p.length } s.mst) ∧
    (received → s.cfg.master = some .ascii → ends (.frameReady .ascii :: taken.1) r taken.2) ∧
    (cap s.cfg < p.length → ∃ t, exec (.asciiAdu a p lrc) s = .next t ∧ t.fault = none ∧ t.result = .ticks 0 ∧
      t.events = s.events ++ [.cause .ascii .overflow] ∧ t.asc.st = .idle ∧ t.asc.bufferLen = 0 ∧ t.mst = s.mst ∧
      ∀ k, cap s.cfg ≤ k → t.asc.buf.read k = s.asc.buf.read k)

/-! ### The master engine -/

/-- Rules R410, R412, R413, R430 to R433, R440: the four read requests, on either framer and for every answer of the
stream. -/
def Obligations.ReadRequestsAreSent : Prop :=
  ∀ (u : FramerKind) (slave : Byte) (addr count : Word16) (s : State), s.takesRequest u 5 →
    let pdu (fc : Byte) : List Byte :=
      [fc, addr.extractLsb' 8 8, addr.extractLsb' 0 8, count.extractLsb' 8 8, count.extractLsb' 0 8]
    let sent (fc : Byte) : State := s.requested u slave (pdu fc) addr 0#16 0#16
    (1 ≤ count.toNat → count.toNat ≤ 2000 →
      exec (.readCoils slave addr count) s = .next (sent 0x01#8) ∧
      exec (.readDiscreteInputs slave addr count) s = .next (sent 0x02#8)) ∧
    (1 ≤ count.toNat → count.toNat ≤ 125 →
      exec (.readHoldingRegisters slave addr count) s = .next (sent 0x03#8) ∧
      exec (.readInputRegisters slave addr count) s = .next (sent 0x04#8))

/-- Rules R410, R412, R413, R434 to R438, R440: the five write requests, on either framer and for every answer of the
stream. -/
def Obligations.WriteRequestsAreSent : Prop :=
  ∀ (u : FramerKind) (slave : Byte) (addr count raddr rcount : Word16) (s : State),
    let wide (v : Word16) : List Byte := [v.extractLsb' 8 8, v.extractLsb' 0 8]
    let n := count.toNat
    (s.takesRequest u 5 →
      exec (.writeSingleCoil slave addr 0x01#8) s =
        .next (s.requested u slave (0x05#8 :: wide addr ++ [0xFF#8, 0x00#8]) 0#16 addr 1#16) ∧
      exec (.writeSingleCoil slave addr 0x00#8) s =
        .next (s.requested u slave (0x05#8 :: wide addr ++ [0x00#8, 0x00#8]) 0#16 addr 1#16) ∧
      exec (.writeSingleRegister slave addr count) s =
        .next (s.requested u slave (0x06#8 :: wide addr ++ wide count) 0#16 addr 1#16)) ∧
    (∀ bits : List Byte, bits.length = (n + 7) / 8 → 1 ≤ n → n ≤ 1968 → s.takesRequest u (6 + (n + 7) / 8) →
      exec (.writeMultipleCoils slave addr count bits) s = .next (s.requested u slave
        (0x0F#8 :: wide addr ++ wide count ++ [BitVec.ofNat 8 ((n + 7) / 8)] ++ clearUnusedBits n bits) 0#16 addr count)) ∧
    (∀ values : List Word16, values.length = n → 1 ≤ n → n ≤ 123 → s.takesRequest u (6 + 2 * n) →
      exec (.writeMultipleRegisters slave addr count values) s = .next (s.requested u slave
        (0x10#8 :: wide addr ++ wide count ++ [BitVec.ofNat 8 (2 * n)] ++ values.flatMap wide) 0#16 addr count)) ∧
    (∀ values : List Word16, values.length = n → 1 ≤ n → n ≤ 121 → 1 ≤ rcount.toNat → rcount.toNat ≤ 125 →
      s.takesRequest u (10 + 2 * n) →
      exec (.readWriteMultipleRegisters slave raddr rcount addr count values) s = .next (s.requested u slave
        (0x17#8 :: wide raddr ++ wide rcount ++ wide addr ++ wide count ++ [BitVec.ofNat 8 (2 * n)] ++
          values.flatMap wide) raddr addr count))

/-- DESIGN CHOICE, notes/assumptions/2.md, rules R148, R410, R152: a request PDU of the table is the request of the same function to the
station that the command's inputs name; the frame on the line carries its encoding, with the unused coil bits cleared. -/
def Obligations.RequestPdusAreSent : Prop :=
  ∀ (u : FramerKind) (i : Instr) (s : State), portOf i = .request → i.wf = true → countsInLimits i = true →
    s.takesRequest u (encode i).length →
    ∃ (pdu : List Byte) (ra wa wc : Word16), exec i s = .next (s.requested u s.inputs.address pdu ra wa wc) ∧
      (∀ a q bc d, i = .pduReqWriteMultipleCoils a q bc d →
        pdu = encode (.pduReqWriteMultipleCoils a q bc (clearUnusedBits q.toNat d)) ∧ ra = 0#16 ∧ wa = a ∧ wc = q) ∧
      ((∀ a q bc d, i ≠ .pduReqWriteMultipleCoils a q bc d) → pdu = encode i) ∧
      (∀ a q, i = .pduReqReadCoils a q ∨ i = .pduReqReadDiscreteInputs a q ∨ i = .pduReqReadHoldingRegisters a q ∨
        i = .pduReqReadInputRegisters a q → ra = a ∧ wa = 0#16 ∧ wc = 0#16) ∧
      (∀ a v, i = .pduReqWriteSingleCoil a v ∨ i = .pduReqWriteSingleRegister a v → ra = 0#16 ∧ wa = a ∧ wc = 1#16) ∧
      (∀ a q bc vs, i = .pduReqWriteMultipleRegisters a q bc vs → ra = 0#16 ∧ wa = a ∧ wc = q) ∧
      (∀ a q w n bc vs, i = .pduReqReadWriteMultipleRegisters a q w n bc vs → ra = a ∧ wa = w ∧ wc = n)

/-- Rules R402, R411, R414, R440, R401: a request that fails a check returns false and writes nothing; one that passes
checks (a) to (c) on an RTU framer without SETUP faults. That the nine request PDUs of the table are requests of the engine
too is the model's choice (DESIGN CHOICE, notes/assumptions/2.md). -/
def Obligations.RequestsAreRefusedWithoutEffect : Prop :=
  ∀ (u : FramerKind) (i : Instr) (s : State), isRequest i = true → i.wf = true → s.fault = none → s.cfg.master = some u →
    (s.mst.st ≠ .idle ∨ countsInLimits i = false ∨ cap s.cfg < requestLength i →
      exec i s = .next { s with result := .bool false }) ∧
    (s.mst.st = .idle → countsInLimits i = true → requestLength i ≤ cap s.cfg → s.configured u = true → ¬ s.free u →
      exec i s = .next { s with result := .bool false }) ∧
    (s.mst.st = .idle → countsInLimits i = true → requestLength i ≤ cap s.cfg → u = .rtu → s.rtu.configured = false →
      exec i s = .next { s with result := .none, fault := some .notConfigured })

/-- Rules R450, R454, R455, R460 to R469: each reply row of the table, carried by a correct frame from the station that the
master engine waits for, is decoded as its rule says and delivered, or found malformed; the framer ends in `idle` (that it
arrives in one command: DESIGN CHOICE, notes/assumptions/2.md). -/
def Obligations.RepliesAreDelivered : Prop :=
  ∀ (u : FramerKind) (i : Instr) (s : State), portOf i = .reply → i.wf = true → s.cfg.master = some u →
    s.mst.st = .waitingForReply → s.inputs.address = s.mst.slave → s.listens u s.inputs.address →
    s.cfg.minPdu ≤ (encode i).length → (encode i).length ≤ cap s.cfg →
    ∃ t, exec i s = .next t ∧ t.fault = none ∧ t.result = .ticks 0 ∧
      (∀ r, expectedReply s.mst i = some r →
        t.events = s.events ++ [.frameReady u, r, .verdict s.inputs.verdict] ∧
        t.mst = { s.mst with st := if s.inputs.verdict then .idle else .processingError }) ∧
      (expectedReply s.mst i = none →
        t.events = s.events ++ [.frameReady u, .malformed] ∧ t.mst = { s.mst with st := .processingError }) ∧
      t.bufferLen u = 0 ∧ t.frameAddress u = s.inputs.address ∧
      t.buf u = (s.buf u).writeList 0 (encode i) ∧ t.cfg = s.cfg ∧ t.rtuLine = s.rtuLine ∧ t.ascLine = s.ascLine ∧
      (u = .rtu → t.rtu.st = .idle ∧ t.asc = s.asc) ∧ (u = .ascii → t.asc.st = .idle ∧ t.rtu = s.rtu)

/-- Rules R470, R170: M_POLL in every state of the engine. Its result is W bits wide; that a value which does not fit keeps its
low W bits is the model's reading (DEDUCED, notes/assumptions/18.md). -/
def Obligations.MasterPollCommand : Prop :=
  ∀ s : State, s.fault = none → s.cfg.master ≠ none →
    let e := tickDiff s.cfg s.now s.mst.stamp
    let ticks (d : Nat) : Result := .ticks (d % 2 ^ s.cfg.tickWidth)
    (s.mst.st = .waitingForReply → s.mst.rtTicks < e → exec .mPoll s = .next { s with
      result := .ticks 0, events := s.events ++ [.timeout, .verdict s.inputs.verdict]
      mst := { s.mst with st := if s.inputs.verdict then .idle else .processingError } }) ∧
    (s.mst.st = .waitingForReply → e ≤ s.mst.rtTicks → exec .mPoll s = .next { s with
      result := ticks (s.mst.rtTicks - e + 1) }) ∧
    (s.mst.st = .waitingTurnaroundReply → s.mst.taTicks ≤ e → exec .mPoll s = .next { s with
      result := .ticks 0, events := s.events ++ [.turnaroundDone], mst := { s.mst with st := .idle } }) ∧
    (s.mst.st = .waitingTurnaroundReply → e < s.mst.taTicks → exec .mPoll s = .next { s with
      result := ticks (s.mst.taTicks - e) }) ∧
    (s.mst.st = .idle ∨ s.mst.st = .processingError → exec .mPoll s = .next { s with result := .ticks 0 })

/-- Rules R471 to R473: an M_POLL issued exactly the returned number of ticks later sees the transition, if the threshold is
one the counter can pass. -/
def Obligations.MasterDeadlineIsExact : Prop :=
  ∀ (s t : State) (d : Nat), s.fault = none → s.cfg.master ≠ none → s.mst.rtTicks < 2 ^ s.cfg.tickWidth - 1 →
    s.mst.taTicks < 2 ^ s.cfg.tickWidth → exec .mPoll s = .next t → t.result = .ticks d → 0 < d →
    let later : State := { t with inputs := { t.inputs with now := s.inputs.now + d } }
    (s.mst.st = .waitingForReply →
      (∃ t', exec .mPoll later = .next t' ∧ t'.events = s.events ++ [.timeout, .verdict s.inputs.verdict]) ∧
      ∀ k, k < d → ∃ t', exec .mPoll { t with inputs := { t.inputs with now := s.inputs.now + k } } = .next t' ∧
        t'.events = s.events ∧ t'.mst = s.mst) ∧
    (s.mst.st = .waitingTurnaroundReply →
      (∃ t', exec .mPoll later = .next t' ∧ t'.events = s.events ++ [.turnaroundDone] ∧ t'.mst.st = .idle) ∧
      ∀ k, k < d → ∃ t', exec .mPoll { t with inputs := { t.inputs with now := s.inputs.now + k } } = .next t' ∧
        t'.events = s.events ∧ t'.mst = s.mst)

/-! ### The whole machine -/

/-- Rules R7, R10, R62, R644, R401: the parameters never change; a command to one framer, and a frame on its line, leave the
other framer and its line alone, and the master engine too unless it is bound to that framer; a master command leaves alone
every framer it is not bound to. -/
def Obligations.UnitsDoNotInterfere : Prop :=
  ∀ (i : Instr) (s t : State), exec i s = .next t →
    t.cfg = s.cfg ∧ t.inputs = s.inputs ∧ t.pending = s.pending ∧
    (portOf i = .rtu ∨ portOf i = .rtuLine →
      t.asc = s.asc ∧ t.ascLine = s.ascLine ∧ (s.cfg.master ≠ some .rtu → t.mst = s.mst)) ∧
    (portOf i = .asc ∨ portOf i = .ascLine →
      t.rtu = s.rtu ∧ t.rtuLine = s.rtuLine ∧ (s.cfg.master ≠ some .ascii → t.mst = s.mst)) ∧
    (portOf i = .mst ∨ portOf i = .request ∨ portOf i = .reply →
      (s.cfg.master ≠ some .rtu → t.rtu = s.rtu ∧ t.rtuLine = s.rtuLine) ∧
      (s.cfg.master ≠ some .ascii → t.asc = s.asc ∧ t.ascLine = s.ascLine))

/-- Rules R65, R122, R620: no command takes back an event, or a byte that a stream has accepted. -/
def Obligations.EventsAndLinesOnlyGrow : Prop :=
  ∀ s t : State, step s = .next t → s.events <+: t.events ∧ s.rtuLine <+: t.rtuLine ∧ s.ascLine <+: t.ascLine

/-- Rules R603, R241, R327, R475: the unrecoverable states are left, and `exception` is entered, only by the commands that
the rules name. -/
def Obligations.UnrecoverableStatesDoNotHeal : Prop :=
  ∀ (i : Instr) (s t : State), exec i s = .next t →
    let invalid (baud ifdUs icdUs : Word32) : Prop :=
      s.cfg.usPerTick = 0 ∨ (baud = 0#32 ∧ (ifdUs = 0#32 ∨ icdUs = 0#32))
    (s.rtu.st = .exception → t.rtu.st ≠ .exception →
      i = .rtuReset ∨ ∃ b f c, i = .rtuSetup b f c ∧ ¬ invalid b f c) ∧
    (s.rtu.st ≠ .exception → t.rtu.st = .exception → ∃ b f c, i = .rtuSetup b f c ∧ invalid b f c) ∧
    (s.asc.st = .exception → t.asc.st ≠ .exception →
      s.cfg.usPerTick ≠ 0 ∧ (i = .ascReset ∨ ∃ ms, i = .ascSetTimeout ms)) ∧
    (s.asc.st ≠ .exception → t.asc.st = .exception →
      s.cfg.usPerTick = 0 ∧ (i = .ascReset ∨ ∃ ms, i = .ascSetTimeout ms)) ∧
    (s.mst.st = .processingError → t.mst.st ≠ .processingError → i = .mReset ∨ i = .mAckError)

/-- Rules R105, R218, R219, R314: while the host owns a buffer, POLL does not write the buffer, its length or the frame
address, whatever the stream returns. -/
def Obligations.HostOwnedBufferIsKept : Prop :=
  ∀ s t : State,
    (exec .rtuPoll s = .next t → s.cfg.master ≠ some .rtu → s.rtu.st ∈ [RtuSt.frameReady, .collision, .queue] →
      t.rtu.buf = s.rtu.buf ∧ t.rtu.bufferLen = s.rtu.bufferLen ∧ t.rtu.frameAddress = s.rtu.frameAddress ∧
      t.rtu.st ∈ [RtuSt.frameReady, .collision, .queue]) ∧
    (exec .ascPoll s = .next t → s.cfg.master ≠ some .ascii → s.asc.st ∈ [AscSt.frameReady, .collision, .queue] →
      t.asc.buf = s.asc.buf ∧ t.asc.bufferLen = s.asc.bufferLen ∧ t.asc.frameAddress = s.asc.frameAddress ∧
      t.asc.st ∈ [AscSt.frameReady, .collision, .queue])

/-- Rules R101, R227, R315: no POLL writes a byte of a buffer at index CAP or above, and `buffer_len` stays within CAP. -/
def Obligations.FramerWritesOnlyBelowCap : Prop :=
  ∀ s t : State,
    (exec .rtuPoll s = .next t → s.rtu.bufferLen ≤ cap s.cfg →
      t.rtu.bufferLen ≤ cap s.cfg ∧ ∀ k, cap s.cfg ≤ k → t.rtu.buf.read k = s.rtu.buf.read k) ∧
    (exec .ascPoll s = .next t → s.asc.bufferLen ≤ cap s.cfg →
      t.asc.bufferLen ≤ cap s.cfg ∧ ∀ k, cap s.cfg ≤ k → t.asc.buf.read k = s.asc.buf.read k)

end
end

