-- ==== Sys2Proof/Laws/Codec.lean ====
section
/-! SUPPORT. Bit fields, byte order and hex characters, there and back (rules R12, R112, R145, R154, R170). -/

namespace Sys2Proof

@[simp] theorem be16_hi8_lo8 (v : Word16) : be16 (hi8 v) (lo8 v) = v := by
  apply BitVec.eq_of_toNat_eq
  simp only [be16, hi8, lo8, BitVec.toNat_append, BitVec.extractLsb'_toNat]
  have h := v.isLt
  rw [Nat.shiftLeft_add_eq_or_of_lt (by omega) _ |>.symm]
  simp only [Nat.shiftRight_eq_div_pow, Nat.shiftLeft_eq]
  omega

@[simp] theorem hi8_be16 (h l : Byte) : hi8 (be16 h l) = h := by
  apply BitVec.eq_of_toNat_eq
  simp only [be16, hi8, BitVec.extractLsb'_toNat, BitVec.toNat_append]
  have h1 := h.isLt
  have h2 := l.isLt
  rw [← Nat.shiftLeft_add_eq_or_of_lt h2 h.toNat]
  simp only [Nat.shiftRight_eq_div_pow, Nat.shiftLeft_eq]
  omega

@[simp] theorem lo8_be16 (h l : Byte) : lo8 (be16 h l) = l := by
  apply BitVec.eq_of_toNat_eq
  simp only [be16, lo8, BitVec.extractLsb'_toNat, BitVec.toNat_append]
  have h1 := h.isLt
  have h2 := l.isLt
  rw [← Nat.shiftLeft_add_eq_or_of_lt h2 h.toNat]
  simp only [Nat.shiftRight_eq_div_pow, Nat.shiftLeft_eq]
  omega

/-- A big-endian field as a number (rule R12). -/
theorem be16_toNat (h l : Byte) : (be16 h l).toNat = h.toNat * 256 + l.toNat := by
  simp only [be16, BitVec.toNat_append]
  rw [← Nat.shiftLeft_add_eq_or_of_lt l.isLt, Nat.shiftLeft_eq]

/-- A 32-bit operand as a number. -/
theorem be32_toNat (b3 b2 b1 b0 : Byte) :
    (be32 b3 b2 b1 b0).toNat = ((b3.toNat * 256 + b2.toNat) * 256 + b1.toNat) * 256 + b0.toNat := by
  have h := be16_toNat b3 b2
  have h' := be16_toNat b1 b0
  simp only [be16] at h h'
  simp only [be32, BitVec.toNat_append (b3 ++ b2)]
  rw [← Nat.shiftLeft_add_eq_or_of_lt (b1 ++ b0).isLt, Nat.shiftLeft_eq, h, h']
  omega

/-- A 32-bit operand from its four bytes. -/
@[simp] theorem be32_of_bytes (v : Word32) :
    be32 (v.extractLsb' 24 8) (v.extractLsb' 16 8) (v.extractLsb' 8 8) (v.extractLsb' 0 8) = v := by
  apply BitVec.eq_of_toNat_eq
  rw [be32_toNat]
  simp only [BitVec.extractLsb'_toNat, Nat.shiftRight_eq_div_pow]
  have h := v.isLt
  omega

@[simp] theorem bytesOf32_be32 (b3 b2 b1 b0 : Byte) : bytesOf32 (be32 b3 b2 b1 b0) = [b3, b2, b1, b0] := by
  have h3 := b3.isLt
  have h2 := b2.isLt
  have h1 := b1.isLt
  have h0 := b0.isLt
  simp only [bytesOf32, List.cons.injEq, and_true]
  refine ⟨?_, ?_, ?_, ?_⟩ <;>
    · apply BitVec.eq_of_toNat_eq
      simp only [BitVec.extractLsb'_toNat, be32_toNat, Nat.shiftRight_eq_div_pow]
      omega

/-! ### Sequences of 16-bit values -/

@[simp] theorem wordsOfBytes_bytesOfWords : ∀ ws : List Word16, wordsOfBytes (bytesOfWords ws) = some ws
  | [] => rfl
  | w :: ws => by simp [bytesOfWords, wordsOfBytes, wordsOfBytes_bytesOfWords ws]

/-- Bytes that read as values are those values' bytes. -/
theorem bytesOfWords_of_wordsOfBytes : ∀ (bs : List Byte) (ws : List Word16), wordsOfBytes bs = some ws →
    bytesOfWords ws = bs
  | [], ws, h => by simp only [wordsOfBytes, Option.some.injEq] at h; subst h; rfl
  | [_], _, h => by simp [wordsOfBytes] at h
  | b :: c :: bs, ws, h => by
    simp only [wordsOfBytes, Option.map_eq_some_iff] at h
    obtain ⟨vs, hv, rfl⟩ := h
    simp [bytesOfWords, bytesOfWords_of_wordsOfBytes bs vs hv]

@[simp] theorem length_bytesOfWords : ∀ ws : List Word16, (bytesOfWords ws).length = 2 * ws.length
  | [] => rfl
  | w :: ws => by simp [bytesOfWords, length_bytesOfWords ws]; omega

/-- Two bytes for each value. -/
theorem bytesOfWords_eq_flatMap : ∀ ws : List Word16, bytesOfWords ws = ws.flatMap fun w => [hi8 w, lo8 w]
  | [] => rfl
  | w :: ws => by simp [bytesOfWords, bytesOfWords_eq_flatMap ws]

/-! ### Hex characters -/

/-- A hex digit reads back (rule R145). -/
@[simp] theorem hexval_hexchar (v : BitVec 4) : hexval (hexchar v) = some v := by
  revert v; decide

/-- A hex digit is none of the format's other characters (rule R143). -/
theorem hexchar_ne (v : BitVec 4) : hexchar v ≠ chColon ∧ hexchar v ≠ chCr ∧ hexchar v ≠ chLf := by
  revert v; decide

/-- A character that is read as a digit is not `:`, CR or LF. -/
theorem ne_of_hexval {c : Byte} {h : BitVec 4} (hc : hexval c = some h) : c ≠ chColon ∧ c ≠ chCr ∧ c ≠ chLf := by
  refine ⟨?_, ?_, ?_⟩ <;> (rintro rfl; revert hc; revert h; decide)

@[simp] theorem byteOfNibbles_split (b : Byte) : byteOfNibbles (highNibble b) (lowNibble b) = b := by
  revert b; decide +kernel

@[simp] theorem highNibble_byteOfNibbles (h l : BitVec 4) : highNibble (byteOfNibbles h l) = h := by
  revert h l; decide +kernel

@[simp] theorem lowNibble_byteOfNibbles (h l : BitVec 4) : lowNibble (byteOfNibbles h l) = l := by
  revert h l; decide +kernel

@[simp] theorem length_hexOfBytes : ∀ bs : List Byte, (hexOfBytes bs).length = 2 * bs.length
  | [] => rfl
  | b :: bs => by simp [hexOfBytes, length_hexOfBytes bs]; omega

theorem hexOfBytes_append : ∀ bs cs : List Byte, hexOfBytes (bs ++ cs) = hexOfBytes bs ++ hexOfBytes cs
  | [], cs => rfl
  | b :: bs, cs => by simp [hexOfBytes, hexOfBytes_append bs cs]

/-- A byte sequence reads back from its characters and CR LF (rule R143). -/
@[simp] theorem bytesOfHex_hexOfBytes : ∀ bs : List Byte, bytesOfHex (hexOfBytes bs ++ [chCr, chLf]) = some bs
  | [] => by simp [hexOfBytes, bytesOfHex]
  | b :: bs => by
    have h := (hexchar_ne (highNibble b)).2.1
    simp [hexOfBytes, bytesOfHex, h, bytesOfHex_hexOfBytes bs]

end Sys2Proof
end

