-- ==== Sys2Proof/Laws/Memory.lean ====
section
/-! SUPPORT. The laws of the frame buffer (rule R100): a read after a write, the canonical form, the range of the indices,
and the bytes of a range. -/

namespace Sys2Proof.Machine

/-! ### Read after write -/

@[simp] theorem Memory.read_nil (i : Nat) : Memory.read [] i = none := rfl

/-- The byte written reads back. -/
@[simp] theorem Memory.read_write_same (m : Memory) (i : Nat) (v : Byte) : (m.write i v).read i = some v := by
  induction m with
  | nil => simp [Memory.write, Memory.read]
  | cons c m ih =>
    obtain ⟨a, w⟩ := c
    by_cases h1 : i < a
    · simp [Memory.write, Memory.read, h1]
    · by_cases h2 : i = a
      · simp [Memory.write, Memory.read, h2]
      · simp [Memory.write, Memory.read, h1, h2, ih]

/-- Every other byte is unchanged. -/
theorem Memory.read_write_other (m : Memory) {i j : Nat} (v : Byte) (h : j ≠ i) : (m.write i v).read j = m.read j := by
  induction m with
  | nil => simp [Memory.write, Memory.read, h]
  | cons c m ih =>
    obtain ⟨a, w⟩ := c
    by_cases h1 : i < a
    · simp [Memory.write, Memory.read, h1, h]
    · by_cases h2 : i = a
      · subst h2; simp [Memory.write, Memory.read, h]
      · simp [Memory.write, Memory.read, h1, h2, ih]

/-- Writing a list leaves alone every byte below its first index. -/
theorem Memory.read_writeList_below (vs : List Byte) : ∀ (m : Memory) {i j : Nat}, j < i →
    (m.writeList i vs).read j = m.read j := by
  induction vs with
  | nil => intro m i j _; rfl
  | cons v vs ih =>
    intro m i j h
    rw [Memory.writeList, ih _ (by omega), Memory.read_write_other _ _ (by omega)]

/-- Writing a list leaves alone every byte past its last index. -/
theorem Memory.read_writeList_beyond (vs : List Byte) : ∀ (m : Memory) {i j : Nat}, i + vs.length ≤ j →
    (m.writeList i vs).read j = m.read j := by
  induction vs with
  | nil => intro m i j _; rfl
  | cons v vs ih =>
    intro m i j h
    simp only [List.length_cons] at h
    rw [Memory.writeList, ih _ (by omega), Memory.read_write_other _ _ (by omega)]

/-! ### The canonical form -/

/-- `above` is kept by a write at a higher index. -/
theorem Memory.above_write {a i : Nat} (v : Byte) (h : a < i) :
    ∀ m : Memory, Memory.above a m = true → Memory.above a (m.write i v) = true
  | [], _ => by simpa [Memory.write, Memory.above] using h
  | (b, w) :: m, hm => by
    by_cases h1 : i < b
    · simpa [Memory.write, Memory.above, h1] using h
    · by_cases h2 : i = b
      · simpa [Memory.write, Memory.above, h2] using hm
      · simpa [Memory.write, Memory.above, h1, h2] using hm

/-- A write keeps the canonical form. -/
theorem Memory.wf_write (m : Memory) (i : Nat) (v : Byte) (h : m.wf = true) : (m.write i v).wf = true := by
  induction m with
  | nil => rfl
  | cons c m ih =>
    obtain ⟨a, w⟩ := c
    have hm := h
    simp only [Memory.wf, Bool.and_eq_true] at h
    by_cases h1 : i < a
    · rw [Memory.write, if_pos h1]
      simp only [Memory.wf, Bool.and_eq_true]
      exact ⟨by simpa [Memory.above] using h1, h⟩
    · by_cases h2 : i = a
      · simpa [Memory.write, h2, Memory.wf] using h
      · simp only [Memory.write, h1, h2, if_false, Memory.wf, Bool.and_eq_true]
        exact ⟨Memory.above_write v (by omega) m h.1, ih h.2⟩

/-- Writing a list keeps the canonical form. -/
theorem Memory.wf_writeList (vs : List Byte) : ∀ (m : Memory) (i : Nat), m.wf = true → (m.writeList i vs).wf = true := by
  induction vs with
  | nil => intro m i h; exact h
  | cons v vs ih => intro m i h; exact ih _ _ (Memory.wf_write m i v h)

/-- The memory after reset has the canonical form, in both framers. -/
theorem Memory.wf_reset : State.reset.rtu.buf.wf = true ∧ State.reset.asc.buf.wf = true := ⟨rfl, rfl⟩

/-- In the canonical form, nothing is listed at or below an index that the first entry is above. -/
theorem Memory.read_below_above : ∀ (m : Memory) {a j : Nat}, m.wf = true → Memory.above a m = true → j ≤ a →
    m.read j = none
  | [], _, _, _, _, _ => rfl
  | (b, w) :: m, a, j, hw, ha, hj => by
    simp only [Memory.wf, Bool.and_eq_true] at hw
    simp only [Memory.above, decide_eq_true_eq] at ha
    simp only [Memory.read, show j ≠ b by omega, if_false]
    exact Memory.read_below_above m hw.2 hw.1 (by omega)

/-! ### The indices -/

/-- The indices of a memory stay below a bound when the written one does. -/
theorem Memory.bound_write {n i : Nat} (v : Byte) (hi : i < n) :
    ∀ m : Memory, (∀ c ∈ m, c.1 < n) → ∀ c ∈ m.write i v, c.1 < n
  | [], _, c, hc => by simp only [Memory.write, List.mem_singleton] at hc; subst hc; exact hi
  | (a, w) :: m, hm, c, hc => by
    have ha : a < n := hm _ List.mem_cons_self
    have ht : ∀ c ∈ m, c.1 < n := fun c h => hm c (List.mem_cons_of_mem _ h)
    by_cases h1 : i < a
    · simp only [Memory.write, h1, if_true, List.mem_cons] at hc
      rcases hc with rfl | rfl | hc
      · exact hi
      · exact ha
      · exact ht c hc
    · by_cases h2 : i = a
      · simp only [Memory.write, h2, if_false, if_true, List.mem_cons, Nat.lt_irrefl] at hc
        rcases hc with rfl | hc
        · exact ha
        · exact ht c hc
      · simp only [Memory.write, h1, h2, if_false, List.mem_cons] at hc
        rcases hc with rfl | hc
        · exact ha
        · exact Memory.bound_write v hi m ht c hc

/-- The same for a list of bytes. -/
theorem Memory.bound_writeList {n : Nat} (vs : List Byte) : ∀ (m : Memory) {i : Nat}, i + vs.length ≤ n →
    (∀ c ∈ m, c.1 < n) → ∀ c ∈ m.writeList i vs, c.1 < n := by
  induction vs with
  | nil => intro m i _ h; exact h
  | cons v vs ih =>
    intro m i hn h
    simp only [List.length_cons] at hn
    exact ih _ (by omega) (Memory.bound_write v (by omega) m h)

/-! ### Ranges -/

@[simp] theorem Memory.readRange_zero (m : Memory) (i : Nat) : m.readRange i 0 = some [] := rfl

/-- One byte, and the rest of the range. -/
theorem Memory.readRange_succ (m : Memory) (i n : Nat) (p : List Byte) :
    m.readRange i (n + 1) = some p ↔ ∃ v vs, p = v :: vs ∧ m.read i = some v ∧ m.readRange (i + 1) n = some vs := by
  rw [Memory.readRange]
  cases h1 : m.read i <;> cases h2 : m.readRange (i + 1) n <;> simp [eq_comm]

/-- A range has as many bytes as it says. -/
theorem Memory.length_of_readRange (m : Memory) : ∀ (n i : Nat) (p : List Byte), m.readRange i n = some p → p.length = n
  | 0, _, p, h => by simp only [Memory.readRange_zero, Option.some.injEq] at h; subst h; rfl
  | n + 1, i, p, h => by
    obtain ⟨v, vs, rfl, -, h2⟩ := (Memory.readRange_succ m i n p).1 h
    simp [Memory.length_of_readRange m n (i + 1) vs h2]

/-- Each byte of a range, read by itself. -/
theorem Memory.read_of_readRange (m : Memory) : ∀ (n i k : Nat) (p : List Byte), m.readRange i n = some p → k < n →
    m.read (i + k) = p[k]?
  | n + 1, i, k, p, h, hk => by
    obtain ⟨v, vs, rfl, h1, h2⟩ := (Memory.readRange_succ m i n p).1 h
    cases k with
    | zero => simpa using h1
    | succ k =>
      have := Memory.read_of_readRange m n (i + 1) k vs h2 (by omega)
      rw [show i + (k + 1) = i + 1 + k by omega, this]; simp

/-- A range is read when all its bytes are. -/
theorem Memory.readRange_eq_none (m : Memory) : ∀ n i : Nat, m.readRange i n = none ↔ ∃ k, k < n ∧ m.read (i + k) = none
  | 0, i => by simp
  | n + 1, i => by
    have ih := Memory.readRange_eq_none m n (i + 1)
    rw [Memory.readRange]
    cases h1 : m.read i with
    | none => simpa using ⟨0, by omega, by simpa using h1⟩
    | some v =>
      cases h2 : m.readRange (i + 1) n with
      | none =>
        obtain ⟨k, hk, hr⟩ := ih.1 h2
        simpa using ⟨k + 1, by omega, by rw [show i + (k + 1) = i + 1 + k by omega]; exact hr⟩
      | some vs =>
        simp only [reduceCtorEq, false_iff, not_exists, not_and]
        intro k hk hr
        cases k with
        | zero => simp [h1] at hr
        | succ k =>
          have : m.readRange (i + 1) n = none := ih.2 ⟨k, by omega, by rw [show i + 1 + k = i + (k + 1) by omega]; exact hr⟩
          rw [h2] at this; cases this

/-- A range does not see a write outside it. -/
theorem Memory.readRange_write_outside (m : Memory) {j : Nat} (v : Byte) : ∀ n i : Nat, j < i ∨ i + n ≤ j →
    (m.write j v).readRange i n = m.readRange i n
  | 0, _, _ => rfl
  | n + 1, i, h => by
    rw [Memory.readRange, Memory.readRange, Memory.read_write_other _ _ (by omega),
      Memory.readRange_write_outside m v n (i + 1) (by omega)]

/-- A range grows by the byte written at its end. -/
theorem Memory.readRange_write_end (m : Memory) (v : Byte) : ∀ (n i : Nat) (p : List Byte), m.readRange i n = some p →
    (m.write (i + n) v).readRange i (n + 1) = some (p ++ [v])
  | 0, i, p, h => by
    simp only [Memory.readRange_zero, Option.some.injEq] at h; subst h
    simp [Memory.readRange]
  | n + 1, i, p, h => by
    obtain ⟨w, vs, rfl, h1, h2⟩ := (Memory.readRange_succ m i n p).1 h
    have ih := Memory.readRange_write_end m v n (i + 1) vs h2
    rw [show i + (n + 1) = i + 1 + n by omega, Memory.readRange, ih, Memory.read_write_other _ _ (by omega), h1]
    rfl

end Sys2Proof.Machine
end

