-- ==== Sys2Proof/Laws/Operands.lean ====
section
/-! SUPPORT. The computations on operands, one byte at a time, and the bounds of ticks and of counts (rules R12, R141, R144,
R152, R201, R222, R302, R422, R440). -/

namespace Sys2Proof.Machine

/-! ### Checks, one byte at a time -/

@[simp] theorem crc16_nil : crc16 [] = 0xFFFF#16 := rfl

/-- The CRC of one more byte (rule R141). -/
@[simp] theorem crc16_concat (s : List Byte) (b : Byte) : crc16 (s ++ [b]) = crcUpdate (crc16 s) b := by simp [crc16]

theorem crc16_append (s t : List Byte) : crc16 (s ++ t) = t.foldl crcUpdate (crc16 s) := by simp [crc16]

@[simp] theorem byteSum_nil : byteSum [] = 0#8 := rfl

/-- The sum of one more byte (rule R144). -/
@[simp] theorem byteSum_concat (s : List Byte) (b : Byte) : byteSum (s ++ [b]) = byteSum s + b := by simp [byteSum]

@[simp] theorem byteSum_singleton (b : Byte) : byteSum [b] = b := by simp [byteSum]

/-- The address filter (rule R222). -/
theorem addrOk_iff (station a : Byte) : addrOk station a = true ↔ station = 0#8 ∨ a = station ∨ a = 0#8 := by
  simp [addrOk, or_assoc]

/-- A count within its limits (rule R440). -/
theorem countOk_iff (count : Word16) (limit : Nat) : countOk count limit = true ↔ 1 ≤ count.toNat ∧ count.toNat ≤ limit := by
  simp [countOk]

/-- Clearing the unused bits keeps the number of bytes (rule R152). -/
@[simp] theorem length_clearUnusedBits (count : Nat) : ∀ bits : List Byte, (clearUnusedBits count bits).length = bits.length
  | [] => rfl
  | [_] => rfl
  | _ :: c :: bs => by simpa [clearUnusedBits] using length_clearUnusedBits count (c :: bs)

/-! ### Ticks -/

theorem tickModulus_pos (c : Config) : 0 < tickModulus c := Nat.two_pow_pos _

/-- `Now()` is a tick (rule R32). -/
theorem nowTick_lt (c : Config) (env : Inputs) : nowTick c env < tickModulus c := Nat.mod_lt _ (tickModulus_pos c)

/-- A saturated value is a tick (rule R12). -/
theorem satTicks_lt (c : Config) (v : Nat) : satTicks c v < tickModulus c := by
  have := tickModulus_pos c; simp only [satTicks]; omega

/-- A width of at least 8 leaves room for the least window (rules R10, R201). -/
theorem two_le_satTicks {c : Config} (h : 8 ≤ c.tickWidth) (v : Nat) : 2 ≤ satTicks c (max 2 v) := by
  have : 2 ^ 8 ≤ 2 ^ c.tickWidth := Nat.pow_le_pow_right (by decide) h
  simp only [satTicks, tickModulus]; omega

/-- A difference of ticks is a tick (rule R12). -/
theorem tickDiff_lt_modulus (c : Config) (a b : Nat) : tickDiff c a b < tickModulus c := Nat.mod_lt _ (tickModulus_pos c)

/-- A tick is no time from itself. -/
@[simp] theorem tickDiff_self (c : Config) (a : Nat) : tickDiff c a a = 0 := by
  have h := Nat.mod_lt a (tickModulus_pos c)
  rw [tickDiff, show a % tickModulus c + (tickModulus c - a % tickModulus c) = tickModulus c by omega, Nat.mod_self]

/-- The master's ticks are ticks (rule R422). -/
theorem msToTicks_lt (c : Config) (ms : Nat) : msToTicks c ms < tickModulus c := by
  have := tickModulus_pos c
  simp only [msToTicks]
  split
  · omega
  · exact satTicks_lt _ _

/-- The capacity is at most BUFFER_MAX and at most 252 (rules R10, R101). -/
theorem cap_le (c : Config) : cap c ≤ c.bufferMax ∧ cap c ≤ 252 := by simp only [cap]; omega

/-- A parameter record that meets rule R10, spelled out. -/
theorem Config.wf_iff (c : Config) : c.wf = true ↔
    8 ≤ c.tickWidth ∧ 1 ≤ c.bufferMax ∧ c.bufferMax ≤ 65535 ∧ 1 ≤ c.minPdu ∧ c.minPdu ≤ 252 ∧ 1 ≤ c.fixedTimingBaud := by
  simp [Config.wf, and_assoc]

end Sys2Proof.Machine
end

