-- ==== Sys2Proof/Laws/State.lean ====
section
/-! SUPPORT. One lemma per field per named update of `State`, so that no proof unfolds an update. -/

namespace Sys2Proof.Machine

/-! ### `raise` -/

@[simp] theorem State.raise_cfg (r : Fault) (s : State) :
    (s.raise r).cfg = s.cfg := rfl

@[simp] theorem State.raise_rtu (r : Fault) (s : State) :
    (s.raise r).rtu = s.rtu := rfl

@[simp] theorem State.raise_asc (r : Fault) (s : State) :
    (s.raise r).asc = s.asc := rfl

@[simp] theorem State.raise_mst (r : Fault) (s : State) :
    (s.raise r).mst = s.mst := rfl

@[simp] theorem State.raise_fault (r : Fault) (s : State) :
    (s.raise r).fault = some r := rfl

@[simp] theorem State.raise_events (r : Fault) (s : State) :
    (s.raise r).events = s.events := rfl

@[simp] theorem State.raise_result (r : Fault) (s : State) :
    (s.raise r).result = .none := rfl

@[simp] theorem State.raise_rtuLine (r : Fault) (s : State) :
    (s.raise r).rtuLine = s.rtuLine := rfl

@[simp] theorem State.raise_ascLine (r : Fault) (s : State) :
    (s.raise r).ascLine = s.ascLine := rfl

@[simp] theorem State.raise_inputs (r : Fault) (s : State) :
    (s.raise r).inputs = s.inputs := rfl

@[simp] theorem State.raise_pending (r : Fault) (s : State) :
    (s.raise r).pending = s.pending := rfl

/-! ### `answer` -/

@[simp] theorem State.answer_cfg (r : Result) (s : State) :
    (s.answer r).cfg = s.cfg := rfl

@[simp] theorem State.answer_rtu (r : Result) (s : State) :
    (s.answer r).rtu = s.rtu := rfl

@[simp] theorem State.answer_asc (r : Result) (s : State) :
    (s.answer r).asc = s.asc := rfl

@[simp] theorem State.answer_mst (r : Result) (s : State) :
    (s.answer r).mst = s.mst := rfl

@[simp] theorem State.answer_fault (r : Result) (s : State) :
    (s.answer r).fault = s.fault := rfl

@[simp] theorem State.answer_events (r : Result) (s : State) :
    (s.answer r).events = s.events := rfl

@[simp] theorem State.answer_result (r : Result) (s : State) :
    (s.answer r).result = r := rfl

@[simp] theorem State.answer_rtuLine (r : Result) (s : State) :
    (s.answer r).rtuLine = s.rtuLine := rfl

@[simp] theorem State.answer_ascLine (r : Result) (s : State) :
    (s.answer r).ascLine = s.ascLine := rfl

@[simp] theorem State.answer_inputs (r : Result) (s : State) :
    (s.answer r).inputs = s.inputs := rfl

@[simp] theorem State.answer_pending (r : Result) (s : State) :
    (s.answer r).pending = s.pending := rfl

/-! ### `answerTicks` -/

@[simp] theorem State.answerTicks_cfg (d : Nat) (s : State) :
    (s.answerTicks d).cfg = s.cfg := rfl

@[simp] theorem State.answerTicks_rtu (d : Nat) (s : State) :
    (s.answerTicks d).rtu = s.rtu := rfl

@[simp] theorem State.answerTicks_asc (d : Nat) (s : State) :
    (s.answerTicks d).asc = s.asc := rfl

@[simp] theorem State.answerTicks_mst (d : Nat) (s : State) :
    (s.answerTicks d).mst = s.mst := rfl

@[simp] theorem State.answerTicks_fault (d : Nat) (s : State) :
    (s.answerTicks d).fault = s.fault := rfl

@[simp] theorem State.answerTicks_events (d : Nat) (s : State) :
    (s.answerTicks d).events = s.events := rfl

@[simp] theorem State.answerTicks_rtuLine (d : Nat) (s : State) :
    (s.answerTicks d).rtuLine = s.rtuLine := rfl

@[simp] theorem State.answerTicks_ascLine (d : Nat) (s : State) :
    (s.answerTicks d).ascLine = s.ascLine := rfl

@[simp] theorem State.answerTicks_inputs (d : Nat) (s : State) :
    (s.answerTicks d).inputs = s.inputs := rfl

@[simp] theorem State.answerTicks_pending (d : Nat) (s : State) :
    (s.answerTicks d).pending = s.pending := rfl

@[simp] theorem State.answerTicks_result (d : Nat) (s : State) :
    (s.answerTicks d).result = .ticks (d % tickModulus s.cfg) := rfl

/-! ### `emit` -/

@[simp] theorem State.emit_cfg (e : Event) (s : State) :
    (s.emit e).cfg = s.cfg := rfl

@[simp] theorem State.emit_rtu (e : Event) (s : State) :
    (s.emit e).rtu = s.rtu := rfl

@[simp] theorem State.emit_asc (e : Event) (s : State) :
    (s.emit e).asc = s.asc := rfl

@[simp] theorem State.emit_mst (e : Event) (s : State) :
    (s.emit e).mst = s.mst := rfl

@[simp] theorem State.emit_fault (e : Event) (s : State) :
    (s.emit e).fault = s.fault := rfl

@[simp] theorem State.emit_events (e : Event) (s : State) :
    (s.emit e).events = s.events ++ [e] := rfl

@[simp] theorem State.emit_result (e : Event) (s : State) :
    (s.emit e).result = s.result := rfl

@[simp] theorem State.emit_rtuLine (e : Event) (s : State) :
    (s.emit e).rtuLine = s.rtuLine := rfl

@[simp] theorem State.emit_ascLine (e : Event) (s : State) :
    (s.emit e).ascLine = s.ascLine := rfl

@[simp] theorem State.emit_inputs (e : Event) (s : State) :
    (s.emit e).inputs = s.inputs := rfl

@[simp] theorem State.emit_pending (e : Event) (s : State) :
    (s.emit e).pending = s.pending := rfl

/-! ### `drawVerdict` -/

@[simp] theorem State.drawVerdict_cfg (env : Inputs) (s : State) :
    (s.drawVerdict env).cfg = s.cfg := rfl

@[simp] theorem State.drawVerdict_rtu (env : Inputs) (s : State) :
    (s.drawVerdict env).rtu = s.rtu := rfl

@[simp] theorem State.drawVerdict_asc (env : Inputs) (s : State) :
    (s.drawVerdict env).asc = s.asc := rfl

@[simp] theorem State.drawVerdict_mst (env : Inputs) (s : State) :
    (s.drawVerdict env).mst = s.mst := rfl

@[simp] theorem State.drawVerdict_fault (env : Inputs) (s : State) :
    (s.drawVerdict env).fault = s.fault := rfl

@[simp] theorem State.drawVerdict_events (env : Inputs) (s : State) :
    (s.drawVerdict env).events = s.events ++ [.verdict env.verdict] := rfl

@[simp] theorem State.drawVerdict_result (env : Inputs) (s : State) :
    (s.drawVerdict env).result = s.result := rfl

@[simp] theorem State.drawVerdict_rtuLine (env : Inputs) (s : State) :
    (s.drawVerdict env).rtuLine = s.rtuLine := rfl

@[simp] theorem State.drawVerdict_ascLine (env : Inputs) (s : State) :
    (s.drawVerdict env).ascLine = s.ascLine := rfl

@[simp] theorem State.drawVerdict_inputs (env : Inputs) (s : State) :
    (s.drawVerdict env).inputs = s.inputs := rfl

@[simp] theorem State.drawVerdict_pending (env : Inputs) (s : State) :
    (s.drawVerdict env).pending = s.pending := rfl

/-! ### `emitCause` -/

@[simp] theorem State.emitCause_cfg (u : FramerKind) (c : Cause) (s : State) :
    (State.emitCause u c s).cfg = s.cfg := rfl

@[simp] theorem State.emitCause_rtu (u : FramerKind) (c : Cause) (s : State) :
    (State.emitCause u c s).rtu = s.rtu := rfl

@[simp] theorem State.emitCause_asc (u : FramerKind) (c : Cause) (s : State) :
    (State.emitCause u c s).asc = s.asc := rfl

@[simp] theorem State.emitCause_mst (u : FramerKind) (c : Cause) (s : State) :
    (State.emitCause u c s).mst = s.mst := rfl

@[simp] theorem State.emitCause_fault (u : FramerKind) (c : Cause) (s : State) :
    (State.emitCause u c s).fault = s.fault := rfl

@[simp] theorem State.emitCause_events (u : FramerKind) (c : Cause) (s : State) :
    (State.emitCause u c s).events = s.events ++ [.cause u c] := rfl

@[simp] theorem State.emitCause_result (u : FramerKind) (c : Cause) (s : State) :
    (State.emitCause u c s).result = s.result := rfl

@[simp] theorem State.emitCause_rtuLine (u : FramerKind) (c : Cause) (s : State) :
    (State.emitCause u c s).rtuLine = s.rtuLine := rfl

@[simp] theorem State.emitCause_ascLine (u : FramerKind) (c : Cause) (s : State) :
    (State.emitCause u c s).ascLine = s.ascLine := rfl

@[simp] theorem State.emitCause_inputs (u : FramerKind) (c : Cause) (s : State) :
    (State.emitCause u c s).inputs = s.inputs := rfl

@[simp] theorem State.emitCause_pending (u : FramerKind) (c : Cause) (s : State) :
    (State.emitCause u c s).pending = s.pending := rfl

/-! ### `setMstSt` -/

@[simp] theorem State.setMstSt_cfg (v : MstSt) (s : State) :
    (s.setMstSt v).cfg = s.cfg := rfl

@[simp] theorem State.setMstSt_rtu (v : MstSt) (s : State) :
    (s.setMstSt v).rtu = s.rtu := rfl

@[simp] theorem State.setMstSt_asc (v : MstSt) (s : State) :
    (s.setMstSt v).asc = s.asc := rfl

@[simp] theorem State.setMstSt_mst (v : MstSt) (s : State) :
    (s.setMstSt v).mst = { s.mst with st := v } := rfl

@[simp] theorem State.setMstSt_fault (v : MstSt) (s : State) :
    (s.setMstSt v).fault = s.fault := rfl

@[simp] theorem State.setMstSt_events (v : MstSt) (s : State) :
    (s.setMstSt v).events = s.events := rfl

@[simp] theorem State.setMstSt_result (v : MstSt) (s : State) :
    (s.setMstSt v).result = s.result := rfl

@[simp] theorem State.setMstSt_rtuLine (v : MstSt) (s : State) :
    (s.setMstSt v).rtuLine = s.rtuLine := rfl

@[simp] theorem State.setMstSt_ascLine (v : MstSt) (s : State) :
    (s.setMstSt v).ascLine = s.ascLine := rfl

@[simp] theorem State.setMstSt_inputs (v : MstSt) (s : State) :
    (s.setMstSt v).inputs = s.inputs := rfl

@[simp] theorem State.setMstSt_pending (v : MstSt) (s : State) :
    (s.setMstSt v).pending = s.pending := rfl

/-! ### `setContext` -/

@[simp] theorem State.setContext_cfg (slave : Byte) (p : RequestPlan) (s : State) :
    (State.setContext slave p s).cfg = s.cfg := rfl

@[simp] theorem State.setContext_rtu (slave : Byte) (p : RequestPlan) (s : State) :
    (State.setContext slave p s).rtu = s.rtu := rfl

@[simp] theorem State.setContext_asc (slave : Byte) (p : RequestPlan) (s : State) :
    (State.setContext slave p s).asc = s.asc := rfl

@[simp] theorem State.setContext_mst (slave : Byte) (p : RequestPlan) (s : State) :
    (State.setContext slave p s).mst =
      { s.mst with
        slave := slave, readAddress := p.readAddress, writeAddress := p.writeAddress, writeCount := p.writeCount } := rfl

@[simp] theorem State.setContext_fault (slave : Byte) (p : RequestPlan) (s : State) :
    (State.setContext slave p s).fault = s.fault := rfl

@[simp] theorem State.setContext_events (slave : Byte) (p : RequestPlan) (s : State) :
    (State.setContext slave p s).events = s.events := rfl

@[simp] theorem State.setContext_result (slave : Byte) (p : RequestPlan) (s : State) :
    (State.setContext slave p s).result = s.result := rfl

@[simp] theorem State.setContext_rtuLine (slave : Byte) (p : RequestPlan) (s : State) :
    (State.setContext slave p s).rtuLine = s.rtuLine := rfl

@[simp] theorem State.setContext_ascLine (slave : Byte) (p : RequestPlan) (s : State) :
    (State.setContext slave p s).ascLine = s.ascLine := rfl

@[simp] theorem State.setContext_inputs (slave : Byte) (p : RequestPlan) (s : State) :
    (State.setContext slave p s).inputs = s.inputs := rfl

@[simp] theorem State.setContext_pending (slave : Byte) (p : RequestPlan) (s : State) :
    (State.setContext slave p s).pending = s.pending := rfl

/-! ### `begin` -/

@[simp] theorem State.begin_cfg (r : Request) (rest : List Request) (s : State) :
    (s.begin r rest).cfg = s.cfg := rfl

@[simp] theorem State.begin_rtu (r : Request) (rest : List Request) (s : State) :
    (s.begin r rest).rtu = s.rtu := rfl

@[simp] theorem State.begin_asc (r : Request) (rest : List Request) (s : State) :
    (s.begin r rest).asc = s.asc := rfl

@[simp] theorem State.begin_mst (r : Request) (rest : List Request) (s : State) :
    (s.begin r rest).mst = s.mst := rfl

@[simp] theorem State.begin_fault (r : Request) (rest : List Request) (s : State) :
    (s.begin r rest).fault = s.fault := rfl

@[simp] theorem State.begin_events (r : Request) (rest : List Request) (s : State) :
    (s.begin r rest).events = s.events := rfl

@[simp] theorem State.begin_result (r : Request) (rest : List Request) (s : State) :
    (s.begin r rest).result = .none := rfl

@[simp] theorem State.begin_rtuLine (r : Request) (rest : List Request) (s : State) :
    (s.begin r rest).rtuLine = s.rtuLine := rfl

@[simp] theorem State.begin_ascLine (r : Request) (rest : List Request) (s : State) :
    (s.begin r rest).ascLine = s.ascLine := rfl

@[simp] theorem State.begin_inputs (r : Request) (rest : List Request) (s : State) :
    (s.begin r rest).inputs = r.inputs := rfl

@[simp] theorem State.begin_pending (r : Request) (rest : List Request) (s : State) :
    (s.begin r rest).pending = rest := rfl

/-! ### `withFetchWord` -/

@[simp] theorem State.withFetchWord_cfg (s : State) (nbits w : Nat) :
    (s.withFetchWord nbits w).cfg = s.cfg := rfl

@[simp] theorem State.withFetchWord_rtu (s : State) (nbits w : Nat) :
    (s.withFetchWord nbits w).rtu = s.rtu := rfl

@[simp] theorem State.withFetchWord_asc (s : State) (nbits w : Nat) :
    (s.withFetchWord nbits w).asc = s.asc := rfl

@[simp] theorem State.withFetchWord_mst (s : State) (nbits w : Nat) :
    (s.withFetchWord nbits w).mst = s.mst := rfl

@[simp] theorem State.withFetchWord_fault (s : State) (nbits w : Nat) :
    (s.withFetchWord nbits w).fault = s.fault := rfl

@[simp] theorem State.withFetchWord_events (s : State) (nbits w : Nat) :
    (s.withFetchWord nbits w).events = s.events := rfl

@[simp] theorem State.withFetchWord_result (s : State) (nbits w : Nat) :
    (s.withFetchWord nbits w).result = s.result := rfl

@[simp] theorem State.withFetchWord_rtuLine (s : State) (nbits w : Nat) :
    (s.withFetchWord nbits w).rtuLine = s.rtuLine := rfl

@[simp] theorem State.withFetchWord_ascLine (s : State) (nbits w : Nat) :
    (s.withFetchWord nbits w).ascLine = s.ascLine := rfl

@[simp] theorem State.withFetchWord_inputs (s : State) (nbits w : Nat) :
    (s.withFetchWord nbits w).inputs = s.inputs := rfl

@[simp] theorem State.withFetchWord_pending (s : State) (nbits w : Nat) :
    (s.withFetchWord nbits w).pending = wordRequest s.inputs nbits w :: s.pending := rfl

/-! ### `setBuf` -/

@[simp] theorem State.setBuf_cfg (u : FramerKind) (m : Memory) (s : State) :
    (s.setBuf u m).cfg = s.cfg := by cases u <;> rfl

@[simp] theorem State.setBuf_mst (u : FramerKind) (m : Memory) (s : State) :
    (s.setBuf u m).mst = s.mst := by cases u <;> rfl

@[simp] theorem State.setBuf_fault (u : FramerKind) (m : Memory) (s : State) :
    (s.setBuf u m).fault = s.fault := by cases u <;> rfl

@[simp] theorem State.setBuf_events (u : FramerKind) (m : Memory) (s : State) :
    (s.setBuf u m).events = s.events := by cases u <;> rfl

@[simp] theorem State.setBuf_result (u : FramerKind) (m : Memory) (s : State) :
    (s.setBuf u m).result = s.result := by cases u <;> rfl

@[simp] theorem State.setBuf_rtuLine (u : FramerKind) (m : Memory) (s : State) :
    (s.setBuf u m).rtuLine = s.rtuLine := by cases u <;> rfl

@[simp] theorem State.setBuf_ascLine (u : FramerKind) (m : Memory) (s : State) :
    (s.setBuf u m).ascLine = s.ascLine := by cases u <;> rfl

@[simp] theorem State.setBuf_inputs (u : FramerKind) (m : Memory) (s : State) :
    (s.setBuf u m).inputs = s.inputs := by cases u <;> rfl

@[simp] theorem State.setBuf_pending (u : FramerKind) (m : Memory) (s : State) :
    (s.setBuf u m).pending = s.pending := by cases u <;> rfl

@[simp] theorem State.setBuf_rtu_rtu (m : Memory) (s : State) :
    (s.setBuf .rtu m).rtu = { s.rtu with buf := m } := rfl

@[simp] theorem State.setBuf_rtu_asc (m : Memory) (s : State) :
    (s.setBuf .rtu m).asc = s.asc := rfl

@[simp] theorem State.setBuf_ascii_rtu (m : Memory) (s : State) :
    (s.setBuf .ascii m).rtu = s.rtu := rfl

@[simp] theorem State.setBuf_ascii_asc (m : Memory) (s : State) :
    (s.setBuf .ascii m).asc = { s.asc with buf := m } := rfl

/-! ### `setFrameFields` -/

@[simp] theorem State.setFrameFields_cfg (u : FramerKind) (a : Byte) (n : Nat) (s : State) :
    (s.setFrameFields u a n).cfg = s.cfg := by cases u <;> rfl

@[simp] theorem State.setFrameFields_mst (u : FramerKind) (a : Byte) (n : Nat) (s : State) :
    (s.setFrameFields u a n).mst = s.mst := by cases u <;> rfl

@[simp] theorem State.setFrameFields_fault (u : FramerKind) (a : Byte) (n : Nat) (s : State) :
    (s.setFrameFields u a n).fault = s.fault := by cases u <;> rfl

@[simp] theorem State.setFrameFields_events (u : FramerKind) (a : Byte) (n : Nat) (s : State) :
    (s.setFrameFields u a n).events = s.events := by cases u <;> rfl

@[simp] theorem State.setFrameFields_result (u : FramerKind) (a : Byte) (n : Nat) (s : State) :
    (s.setFrameFields u a n).result = s.result := by cases u <;> rfl

@[simp] theorem State.setFrameFields_rtuLine (u : FramerKind) (a : Byte) (n : Nat) (s : State) :
    (s.setFrameFields u a n).rtuLine = s.rtuLine := by cases u <;> rfl

@[simp] theorem State.setFrameFields_ascLine (u : FramerKind) (a : Byte) (n : Nat) (s : State) :
    (s.setFrameFields u a n).ascLine = s.ascLine := by cases u <;> rfl

@[simp] theorem State.setFrameFields_inputs (u : FramerKind) (a : Byte) (n : Nat) (s : State) :
    (s.setFrameFields u a n).inputs = s.inputs := by cases u <;> rfl

@[simp] theorem State.setFrameFields_pending (u : FramerKind) (a : Byte) (n : Nat) (s : State) :
    (s.setFrameFields u a n).pending = s.pending := by cases u <;> rfl

@[simp] theorem State.setFrameFields_rtu_rtu (a : Byte) (n : Nat) (s : State) :
    (s.setFrameFields .rtu a n).rtu = { s.rtu with frameAddress := a, bufferLen := n } := rfl

@[simp] theorem State.setFrameFields_rtu_asc (a : Byte) (n : Nat) (s : State) :
    (s.setFrameFields .rtu a n).asc = s.asc := rfl

@[simp] theorem State.setFrameFields_ascii_rtu (a : Byte) (n : Nat) (s : State) :
    (s.setFrameFields .ascii a n).rtu = s.rtu := rfl

@[simp] theorem State.setFrameFields_ascii_asc (a : Byte) (n : Nat) (s : State) :
    (s.setFrameFields .ascii a n).asc = { s.asc with frameAddress := a, bufferLen := n } := rfl

/-! ### `enterQueue` -/

@[simp] theorem State.enterQueue_cfg (u : FramerKind) (s : State) :
    (s.enterQueue u).cfg = s.cfg := by cases u <;> rfl

@[simp] theorem State.enterQueue_mst (u : FramerKind) (s : State) :
    (s.enterQueue u).mst = s.mst := by cases u <;> rfl

@[simp] theorem State.enterQueue_fault (u : FramerKind) (s : State) :
    (s.enterQueue u).fault = s.fault := by cases u <;> rfl

@[simp] theorem State.enterQueue_events (u : FramerKind) (s : State) :
    (s.enterQueue u).events = s.events := by cases u <;> rfl

@[simp] theorem State.enterQueue_result (u : FramerKind) (s : State) :
    (s.enterQueue u).result = s.result := by cases u <;> rfl

@[simp] theorem State.enterQueue_rtuLine (u : FramerKind) (s : State) :
    (s.enterQueue u).rtuLine = s.rtuLine := by cases u <;> rfl

@[simp] theorem State.enterQueue_ascLine (u : FramerKind) (s : State) :
    (s.enterQueue u).ascLine = s.ascLine := by cases u <;> rfl

@[simp] theorem State.enterQueue_inputs (u : FramerKind) (s : State) :
    (s.enterQueue u).inputs = s.inputs := by cases u <;> rfl

@[simp] theorem State.enterQueue_pending (u : FramerKind) (s : State) :
    (s.enterQueue u).pending = s.pending := by cases u <;> rfl

@[simp] theorem State.enterQueue_rtu_rtu (s : State) :
    (s.enterQueue .rtu).rtu = { s.rtu with st := .queue } := rfl

@[simp] theorem State.enterQueue_rtu_asc (s : State) :
    (s.enterQueue .rtu).asc = s.asc := rfl

@[simp] theorem State.enterQueue_ascii_rtu (s : State) :
    (s.enterQueue .ascii).rtu = s.rtu := rfl

@[simp] theorem State.enterQueue_ascii_asc (s : State) :
    (s.enterQueue .ascii).asc = { s.asc with st := .queue } := rfl

/-! ### What a framer holds, after an update of its own -/

@[simp] theorem State.buf_setBuf (u : FramerKind) (m : Memory) (s : State) : (s.setBuf u m).buf u = m := by
  cases u <;> rfl

@[simp] theorem State.bufferLen_setFrameFields (u : FramerKind) (a : Byte) (n : Nat) (s : State) :
    (s.setFrameFields u a n).bufferLen u = n := by cases u <;> rfl

@[simp] theorem State.frameAddress_setFrameFields (u : FramerKind) (a : Byte) (n : Nat) (s : State) :
    (s.setFrameFields u a n).frameAddress u = a := by cases u <;> rfl

@[simp] theorem State.buf_setFrameFields (u : FramerKind) (a : Byte) (n : Nat) (s : State) :
    (s.setFrameFields u a n).buf u = s.buf u := by cases u <;> rfl

@[simp] theorem State.buf_enterQueue (u : FramerKind) (s : State) : (s.enterQueue u).buf u = s.buf u := by
  cases u <;> rfl

@[simp] theorem State.inQueue_enterQueue (u : FramerKind) (s : State) : (s.enterQueue u).inQueue u = true := by
  cases u <;> rfl

/-! ### Sequencing -/

/-- A fault recorded: the rest of the command does not run (rule R630). -/
@[simp] theorem State.andThen_of_fault {s : State} (f : State → State) {r : Fault} (h : s.fault = some r) :
    s.andThen f = s := by simp [State.andThen, h]

/-- No fault: the rest of the command runs. -/
@[simp] theorem State.andThen_of_ok {s : State} (f : State → State) (h : s.fault = none) : s.andThen f = f s := by
  simp [State.andThen, h]

/-- In the faulted state a command has no effect (rule R630). -/
@[simp] theorem State.command_of_fault {s : State} (f : State → State) {r : Fault} (h : s.fault = some r) :
    s.command f = s := State.andThen_of_fault _ h

/-- Without a fault it runs. -/
@[simp] theorem State.command_of_ok {s : State} (f : State → State) (h : s.fault = none) :
    s.command f = f { s with result := .none } := State.andThen_of_ok _ h

/-- A master command where there is a master engine. -/
@[simp] theorem State.masterCommand_of_ok {s : State} (f : State → State) {u : FramerKind} (h : s.fault = none)
    (hm : s.cfg.master = some u) : s.masterCommand f = f { s with result := .none } := by
  simp [State.masterCommand, h, hm]

/-- A master command where there is none (rule R631). -/
@[simp] theorem State.masterCommand_of_none {s : State} (f : State → State) (h : s.fault = none)
    (hm : s.cfg.master = none) : s.masterCommand f = { s with fault := some .badCommand, result := .none } := by
  simp [State.masterCommand, h, hm, State.raise]

/-- What sequencing can do: stop at a fault, or go on. -/
theorem State.andThen_cases (s : State) (f : State → State) :
    (∃ r, s.fault = some r ∧ s.andThen f = s) ∨ (s.fault = none ∧ s.andThen f = f s) := by
  cases h : s.fault with
  | none => exact .inr ⟨rfl, State.andThen_of_ok f h⟩
  | some r => exact .inl ⟨r, rfl, State.andThen_of_fault f h⟩

end Sys2Proof.Machine
end

