-- ==== Sys2Proof/Laws/Ops.lean ====
section
/-! SUPPORT. What each shared operation can do, said once: an operation of framer `u` touches `u`, its line, the events, the
fault and the result, and the master engine only where it is bound to `u`; and every instruction answers a next state. -/

namespace Sys2Proof.Machine

/-! ### The relation -/

/-- `t` comes from `s` by work of framer `u`: everything else is unchanged, and events and lines only grow. -/
structure Touches (u : FramerKind) (s t : State) : Prop where
  cfg : t.cfg = s.cfg
  inputs : t.inputs = s.inputs
  pending : t.pending = s.pending
  rtu : u ≠ .rtu → t.rtu = s.rtu ∧ t.rtuLine = s.rtuLine
  asc : u ≠ .ascii → t.asc = s.asc ∧ t.ascLine = s.ascLine
  mst : s.cfg.master ≠ some u → t.mst = s.mst
  events : s.events <+: t.events
  rtuLine : s.rtuLine <+: t.rtuLine
  ascLine : s.ascLine <+: t.ascLine

theorem Touches.refl (u : FramerKind) (s : State) : Touches u s s := by
  constructor <;> simp

theorem Touches.trans {u : FramerKind} {a b c : State} (h : Touches u a b) (k : Touches u b c) : Touches u a c where
  cfg := k.cfg.trans h.cfg
  inputs := k.inputs.trans h.inputs
  pending := k.pending.trans h.pending
  rtu hu := ⟨(k.rtu hu).1.trans (h.rtu hu).1, (k.rtu hu).2.trans (h.rtu hu).2⟩
  asc hu := ⟨(k.asc hu).1.trans (h.asc hu).1, (k.asc hu).2.trans (h.asc hu).2⟩
  mst hm := (k.mst (by rw [h.cfg]; exact hm)).trans (h.mst hm)
  events := h.events.trans k.events
  rtuLine := h.rtuLine.trans k.rtuLine
  ascLine := h.ascLine.trans k.ascLine

/-- The rest of a command, where each part touches one framer. -/
theorem Touches.andThen {u : FramerKind} {a b : State} {f : State → State} (h : Touches u a b) (k : Touches u b (f b)) :
    Touches u a (b.andThen f) := by
  obtain ⟨r, -, e⟩ | ⟨-, e⟩ := State.andThen_cases b f
  · rw [e]; exact h
  · rw [e]; exact h.trans k

/-- A choice between two operations. -/
theorem Touches.ite {u : FramerKind} {s t t' : State} {c : Prop} [Decidable c] (h : c → Touches u s t)
    (k : ¬c → Touches u s t') : Touches u s (if c then t else t') := by
  split
  · exact h ‹_›
  · exact k ‹_›

/-! ### Operations of either framer -/

theorem touches_raise (u : FramerKind) (r : Fault) (s : State) : Touches u s (s.raise r) := by constructor <;> simp

theorem touches_answer (u : FramerKind) (r : Result) (s : State) : Touches u s (s.answer r) := by constructor <;> simp

theorem touches_answerTicks (u : FramerKind) (d : Nat) (s : State) : Touches u s (s.answerTicks d) := touches_answer u _ s

theorem touches_emit (u : FramerKind) (e : Event) (s : State) : Touches u s (s.emit e) := by constructor <;> simp

theorem touches_emitCause (u v : FramerKind) (c : Cause) (s : State) : Touches u s (State.emitCause v c s) :=
  touches_emit u _ s

theorem touches_setBuf (u : FramerKind) (m : Memory) (s : State) : Touches u s (s.setBuf u m) := by
  cases u <;> constructor <;> simp

theorem touches_setFrameFields (u : FramerKind) (a : Byte) (n : Nat) (s : State) :
    Touches u s (s.setFrameFields u a n) := by cases u <;> constructor <;> simp

theorem touches_enterQueue (u : FramerKind) (s : State) : Touches u s (s.enterQueue u) := by
  cases u <;> constructor <;> simp

/-- A framer's registers replaced. -/
theorem touches_rtu (s : State) (r : RtuFramer) : Touches .rtu s { s with rtu := r } := by constructor <;> simp

theorem touches_asc (s : State) (a : AscFramer) : Touches .ascii s { s with asc := a } := by constructor <;> simp

/-- The master engine's registers replaced, by the framer it is bound to. -/
theorem touches_mst {u : FramerKind} (s : State) (m : Master) (h : s.cfg.master = some u) :
    Touches u s { s with mst := m } := by constructor <;> simp [h]

/-- `BufWrite`: it stores the byte below BUFFER_MAX, and faults there or above (rule R100). -/
theorem bufWrite_cases (s : State) (u : FramerKind) (i : Nat) (v : Byte) :
    (i < s.cfg.bufferMax ∧ s.bufWrite u i v = s.setBuf u ((s.buf u).write i v)) ∨
    (s.cfg.bufferMax ≤ i ∧ s.bufWrite u i v = s.raise .bufIndex) := by
  by_cases h : i < s.cfg.bufferMax
  · exact .inl ⟨h, by simp [State.bufWrite, h]⟩
  · exact .inr ⟨by omega, by simp [State.bufWrite, h]⟩

theorem touches_bufWrite (u : FramerKind) (s : State) (i : Nat) (v : Byte) : Touches u s (s.bufWrite u i v) := by
  obtain ⟨-, e⟩ | ⟨-, e⟩ := bufWrite_cases s u i v <;> rw [e]
  · exact touches_setBuf ..
  · exact touches_raise ..

/-- `BufRead`: the byte, or one of the two faults (rule R100). -/
theorem bufRead_cases (s : State) (u : FramerKind) (i : Nat) :
    (∃ v, i < s.cfg.bufferMax ∧ (s.buf u).read i = some v ∧ s.bufRead u i = .ok v) ∨
    (i < s.cfg.bufferMax ∧ (s.buf u).read i = none ∧ s.bufRead u i = .error .unwritten) ∨
    (s.cfg.bufferMax ≤ i ∧ s.bufRead u i = .error .bufIndex) := by
  by_cases h : i < s.cfg.bufferMax
  · cases hr : (s.buf u).read i with
    | none => exact .inr (.inl ⟨h, rfl, by simp [State.bufRead, h, hr]⟩)
    | some v => exact .inl ⟨v, h, rfl, by simp [State.bufRead, h, hr]⟩
  · exact .inr (.inr ⟨by omega, by simp [State.bufRead, h]⟩)

/-! ### Transmission -/

theorem touches_rtuFinished (s : State) : Touches .rtu s (rtuFinished s) :=
  .ite (fun _ => .ite (fun _ => touches_rtu ..) fun _ => .refl ..) fun _ => touches_raise ..

theorem touches_ascFinished (s : State) : Touches .ascii s (ascFinished s) :=
  .ite (fun _ => touches_asc ..) fun _ => .refl ..

theorem touches_framerFinished (u : FramerKind) (s : State) : Touches u s (framerFinished u s) := by
  cases u
  · exact touches_rtuFinished s
  · exact touches_ascFinished s

theorem touches_rtuTxAccepted (b : Byte) (s : State) : Touches .rtu s (rtuTxAccepted b s) := by
  constructor <;> simp [rtuTxAccepted]

theorem touches_ascTxAccepted (c : Byte) (s : State) : Touches .ascii s (ascTxAccepted c s) := by
  constructor <;> simp [ascTxAccepted]

theorem touches_rtuTxLoop (env : Inputs) : ∀ (fuel : Nat) (left : Option Nat) (s : State),
    Touches .rtu s (rtuTxLoop env fuel left s)
  | 0, _, s => .refl ..
  | fuel + 1, left, s => by
    rw [rtuTxLoop]
    split
    · split
      · exact touches_raise ..
      · split
        · exact (touches_rtu s _).trans (touches_emitCause ..)
        · exact .refl ..
        · exact (touches_rtuTxAccepted _ s).trans (touches_rtuTxLoop env fuel _ _)
    · exact .refl ..

theorem touches_ascTxLoop (env : Inputs) : ∀ (fuel : Nat) (left : Option Nat) (s : State),
    Touches .ascii s (ascTxLoop env fuel left s)
  | 0, _, s => .refl ..
  | fuel + 1, left, s => by
    rw [ascTxLoop]
    split
    · split
      · exact touches_raise ..
      · split
        · exact (touches_asc s _).trans (touches_emitCause ..)
        · exact .refl ..
        · exact (touches_ascTxAccepted _ s).trans (touches_ascTxLoop env fuel _ _)
    · exact .refl ..

theorem touches_rtuTxProgress (env : Inputs) (s : State) : Touches .rtu s (rtuTxProgress env s) :=
  (touches_rtuTxLoop ..).andThen (.ite (fun _ => .ite (fun _ => touches_rtu ..) fun _ => .refl ..) fun _ => .refl ..)

theorem touches_ascTxProgress (env : Inputs) (s : State) : Touches .ascii s (ascTxProgress env s) :=
  (touches_ascTxLoop ..).andThen (.ite (fun _ => .ite (fun _ => touches_asc ..) fun _ => .refl ..) fun _ => .refl ..)

theorem touches_framerTransmit (env : Inputs) (u : FramerKind) (s : State) : Touches u s (framerTransmit env u s) := by
  rw [framerTransmit]
  split
  · exact touches_raise ..
  · cases u
    · exact (touches_rtu s _).trans (touches_rtuTxProgress ..)
    · exact (touches_asc s _).trans (touches_ascTxProgress ..)

/-! ### The frame-ready step and the requests: the engine is bound to the framer -/

theorem touches_deliver {u : FramerKind} {s : State} (env : Inputs) (r : Event) (h : s.cfg.master = some u) :
    Touches u s (deliver u env r s) := by
  have hf := ((touches_emit u r s).trans (touches_emit u (.verdict env.verdict) _)).trans (touches_framerFinished u _)
  exact hf.andThen (touches_mst _ _ (by rw [hf.cfg]; exact h))

theorem touches_rejectReply {u : FramerKind} {s : State} (h : s.cfg.master = some u) : Touches u s (rejectReply u s) := by
  have hf := (touches_emit u .malformed s).trans (touches_framerFinished u _)
  exact hf.andThen (touches_mst _ _ (by rw [hf.cfg]; exact h))

theorem touches_processReply {u : FramerKind} {s : State} (env : Inputs) (h : s.cfg.master = some u) :
    Touches u s (processReply u env s) := by
  rw [processReply]
  split
  · exact touches_raise ..
  · split
    · exact touches_deliver env _ h
    · exact touches_rejectReply h

theorem touches_frameReadyStep {u : FramerKind} {s : State} (env : Inputs) (h : s.cfg.master = some u) :
    Touches u s (frameReadyStep u env s) :=
  .ite (fun _ => (touches_emit ..).trans (touches_framerFinished ..)) fun _ =>
    .ite (fun _ => ((touches_emit u .stale s).trans (touches_mst _ _ h)).trans (touches_framerFinished ..)) fun _ =>
      (touches_mst s _ h).trans (touches_processReply env h)

theorem touches_notifyMaster (u : FramerKind) (env : Inputs) (s : State) : Touches u s (notifyMaster u env s) :=
  .ite (touches_frameReadyStep env) fun _ => .refl ..

theorem touches_sendRequest {u : FramerKind} {s : State} (env : Inputs) (slave : Byte) (p : RequestPlan)
    (h : s.cfg.master = some u) : Touches u s (sendRequest env u slave p s) := by
  have h1 : Touches u s (State.setContext slave p (State.loadPdu u slave p.pdu (s.enterQueue u))) :=
    (((touches_enterQueue u s).trans (touches_setBuf ..)).trans (touches_setFrameFields ..)).trans
      (touches_mst _ _ (by simpa using h))
  have h2 := h1.trans (touches_framerTransmit env u _)
  exact h2.andThen ((touches_mst _ _ (by rw [h2.cfg]; exact h)).trans (touches_answer ..))

/-- A request touches the framer that the master engine is bound to. -/
theorem touches_masterRequest {u : FramerKind} {s : State} (env : Inputs) (slave : Byte) (p : RequestPlan)
    (h : s.cfg.master = some u) : Touches u s (masterRequest env slave p s) := by
  rw [masterRequest, h]
  exact .ite (fun _ => touches_answer ..) fun _ => .ite (fun _ => touches_answer ..) fun _ =>
    .ite (fun _ => touches_answer ..) fun _ => .ite (fun _ => touches_raise ..) fun _ =>
      .ite (fun _ => touches_answer ..) fun _ => touches_sendRequest env slave p h

/-! ### POLL -/

theorem touches_rtuReject (c : Cause) (s : State) : Touches .rtu s (rtuReject c s) :=
  (touches_emitCause ..).trans (touches_rtu ..)

theorem touches_rtuFrameEnd (env : Inputs) (s : State) : Touches .rtu s (rtuFrameEnd env s) :=
  .ite (fun _ => touches_rtuReject ..) fun _ => .ite (fun _ => touches_rtuReject ..) fun _ =>
    .ite (fun _ => ((touches_rtu s _).trans (touches_emit ..)).trans (touches_notifyMaster ..)) fun _ =>
      touches_rtuReject ..

theorem touches_rtuPollTimers (env : Inputs) (s : State) : Touches .rtu s (rtuPollTimers env s) := by
  refine .ite (fun _ => ?_) fun _ => .refl ..
  split <;>
    first
      | exact .refl ..
      | exact touches_rtuFrameEnd ..
      | exact touches_rtu ..
      | exact (touches_rtu s _).trans (touches_notifyMaster ..)

theorem touches_rtuDump (c : Cause) (s : State) : Touches .rtu s (rtuDump c s) :=
  (touches_rtu s _).trans (touches_emitCause ..)

theorem touches_rtuReceiveByte (b : Byte) (gap : Nat) (s : State) : Touches .rtu s (rtuReceiveByte b gap s) :=
  .ite (fun _ => touches_rtuDump ..) fun _ =>
    .ite (fun _ => .ite (fun _ => touches_rtuDump ..) fun _ =>
      (touches_bufWrite ..).andThen ((touches_rtu _ _).trans (touches_rtu ..))) fun _ =>
        .ite (fun _ => (touches_rtu s _).trans (touches_rtu ..)) fun _ => (touches_rtu s _).trans (touches_rtu ..)

theorem touches_rtuOnByte (env : Inputs) (b : Byte) (s : State) : Touches .rtu s (rtuOnByte env b s) := by
  refine Touches.trans (touches_rtu s { s.rtu with last := nowTick s.cfg env }) ?_
  rw [rtuOnByte]
  dsimp only
  split <;>
    first
      | exact .refl ..
      | exact touches_rtu ..
      | exact touches_rtuReceiveByte ..
      | exact (touches_rtu _ _).trans (touches_emitCause ..)

theorem touches_rtuReadError (env : Inputs) (s : State) : Touches .rtu s (rtuReadError env s) := by
  refine (touches_emitCause .rtu .rtu .rxTransport s).trans ?_
  rw [rtuReadError]
  dsimp only
  split <;>
    first
      | exact .refl ..
      | exact touches_rtu ..

theorem touches_rtuDrain (env : Inputs) : ∀ (bs : List Byte) (s : State), Touches .rtu s (rtuDrain env bs s)
  | [], _ => .ite (fun _ => touches_rtuReadError ..) fun _ => .refl ..
  | _ :: bs, _ => (touches_rtuOnByte ..).andThen (touches_rtuDrain env bs _)

/-- An RTU framer's POLL. -/
theorem touches_rtuPoll (env : Inputs) (s : State) : Touches .rtu s (rtuPoll env s) :=
  .ite (fun _ => .ite (fun _ => touches_answer ..) fun _ =>
    (touches_rtuPollTimers ..).andThen <| (touches_rtuDrain ..).andThen <|
      Touches.andThen (.ite (fun _ => touches_rtuTxProgress ..) fun _ => .refl ..) (touches_answer ..)) fun _ =>
        touches_raise ..

theorem touches_ascDiscard (c : Cause) (s : State) : Touches .ascii s (ascDiscard c s) :=
  (touches_asc s _).trans (touches_emitCause ..)

theorem touches_ascPollTimers (env : Inputs) (s : State) : Touches .ascii s (ascPollTimers env s) :=
  .ite (fun _ => .ite (fun _ => touches_ascDiscard ..) fun _ =>
    .ite (fun _ => (touches_asc s _).trans (touches_notifyMaster ..)) fun _ => .refl ..) fun _ => .refl ..

theorem touches_ascFrameEnd (env : Inputs) (s : State) : Touches .ascii s (ascFrameEnd env s) :=
  .ite (fun _ => touches_ascDiscard ..) fun _ => .ite (fun _ => touches_ascDiscard ..) fun _ =>
    .ite (fun _ => ((touches_asc s _).trans (touches_emit ..)).trans (touches_notifyMaster ..)) fun _ =>
      touches_ascDiscard ..

theorem touches_ascDecodedByte (v : Byte) (s : State) : Touches .ascii s (ascDecodedByte v s) :=
  .ite (fun _ => .ite (fun _ => touches_ascDiscard ..) fun _ =>
    (touches_bufWrite ..).andThen ((touches_asc _ _).trans (touches_asc ..))) fun _ => touches_asc ..

theorem touches_ascReceiveChar (env : Inputs) (c : Byte) (s : State) : Touches .ascii s (ascReceiveChar env c s) := by
  rw [ascReceiveChar]
  split <;>
    first
      | exact touches_asc ..
      | exact touches_ascDecodedByte ..
      | exact .ite (fun _ => touches_asc ..) fun _ => touches_ascDiscard ..
      | exact .ite (fun _ => touches_ascFrameEnd ..) fun _ => touches_ascDiscard ..
      | exact touches_ascDiscard ..

theorem touches_ascOnChar (env : Inputs) (c : Byte) (s : State) : Touches .ascii s (ascOnChar env c s) := by
  refine Touches.trans (touches_asc s { s.asc with last := nowTick s.cfg env }) ?_
  rw [ascOnChar]
  dsimp only
  split <;>
    first
      | exact .refl ..
      | exact .ite (fun _ => touches_asc ..) fun _ => .refl ..
      | exact .ite (fun _ => (touches_emitCause ..).trans (touches_asc ..)) fun _ => touches_ascReceiveChar ..
      | exact (touches_asc _ _).trans (touches_emitCause ..)

theorem touches_ascReadError (s : State) : Touches .ascii s (ascReadError s) :=
  (touches_emitCause .ascii .ascii .rxTransport s).trans (.ite (fun _ => touches_asc ..) fun _ => .refl ..)

theorem touches_ascDrain (env : Inputs) : ∀ (cs : List Byte) (s : State), Touches .ascii s (ascDrain env cs s)
  | [], _ => .ite (fun _ => touches_ascReadError ..) fun _ => .refl ..
  | _ :: cs, _ => (touches_ascOnChar ..).andThen (touches_ascDrain env cs _)

/-- An ASCII framer's POLL. -/
theorem touches_ascPoll (env : Inputs) (s : State) : Touches .ascii s (ascPoll env s) :=
  .ite (fun _ => touches_answer ..) fun _ =>
    (touches_ascPollTimers ..).andThen <| (touches_ascDrain ..).andThen <|
      Touches.andThen (.ite (fun _ => touches_ascTxProgress ..) fun _ => .refl ..) (touches_answer ..)

/-! ### Whole frames -/

theorem touches_rtuLineFrame (env : Inputs) (bytes : List Byte) (s : State) : Touches .rtu s (rtuLineFrame env bytes s) :=
  (touches_rtuPoll ..).andThen (touches_rtuPoll ..)

theorem touches_ascLineFrame (env : Inputs) (chars : List Byte) (s : State) : Touches .ascii s (ascLineFrame env chars s) :=
  touches_ascPoll ..

/-- A reply arrives through the framer that the master engine is bound to. -/
theorem touches_replyArrives {u : FramerKind} {s : State} (env : Inputs) (p : List Byte) (h : s.cfg.master = some u) :
    Touches u s (replyArrives env p s) := by
  rw [replyArrives, h]
  cases u
  · exact touches_rtuLineFrame ..
  · exact touches_ascLineFrame ..

/-! ### Every instruction and every step answers a next state -/

/-- No instruction stops the machine (DEDUCED, notes/assumptions/5.md). -/
theorem exec_next (i : Instr) (s : State) : ∃ t, exec i s = .next t := by cases i <;> exact ⟨_, rfl⟩

/-- No step does. -/
theorem step_next (s : State) : ∃ t, step s = .next t := by
  rw [step]
  split
  · exact ⟨_, rfl⟩
  · split
    · exact exec_next ..
    · exact ⟨_, rfl⟩

end Sys2Proof.Machine
end

