-- ==== Sys2Proof/Laws/PerInstr.lean ====
section
/-! SUPPORT. A statement for each instruction: its encoding begins with a byte of its row of spec/opcode_table.json
("match" and "mask"). -/

namespace Sys2Proof.Laws

/-- A fixed byte belongs to its own row. -/
theorem exactByte_matches (b : Byte) : b &&& (exactByte b).mask = (exactByte b).value := by
  revert b; decide +kernel

/-- A function code with bit 7 set belongs to the row of the exception replies (rule R150). -/
theorem exceptionByte_matches (fc : BitVec 7) : (1#1 ++ fc) &&& 0x80#8 = 0x80#8 := by revert fc; decide +kernel

/-- A function code with bit 7 clear belongs to the row of the other replies (rule R469). -/
theorem otherByte_matches (fc : Byte) : fc.toNat < 128 → fc &&& 0x80#8 = 0x00#8 := by revert fc; decide +kernel

/-- The first byte of a well-formed instruction's encoding is in its row of the opcode table. -/
def TableMatch.Statement (i : Instr) : Prop :=
  i.wf = true → ∃ b rest, encode i = b :: rest ∧ b &&& (rowByte i).mask = (rowByte i).value

theorem TableMatch.rtuReset :
    TableMatch.Statement .rtuReset := fun _ => ⟨_, _, rfl, exactByte_matches _⟩

theorem TableMatch.ascReset :
    TableMatch.Statement .ascReset := fun _ => ⟨_, _, rfl, exactByte_matches _⟩

theorem TableMatch.rtuSetup (baud ifdUs icdUs : Word32) :
    TableMatch.Statement (.rtuSetup baud ifdUs icdUs) := fun _ => ⟨_, _, rfl, exactByte_matches _⟩

theorem TableMatch.ascSetTimeout (ms : Word32) :
    TableMatch.Statement (.ascSetTimeout ms) := fun _ => ⟨_, _, rfl, exactByte_matches _⟩

theorem TableMatch.rtuSetStationAddress (addr : Byte) :
    TableMatch.Statement (.rtuSetStationAddress addr) := fun _ => ⟨_, _, rfl, exactByte_matches _⟩

theorem TableMatch.ascSetStationAddress (addr : Byte) :
    TableMatch.Statement (.ascSetStationAddress addr) := fun _ => ⟨_, _, rfl, exactByte_matches _⟩

theorem TableMatch.rtuPoll :
    TableMatch.Statement .rtuPoll := fun _ => ⟨_, _, rfl, exactByte_matches _⟩

theorem TableMatch.ascPoll :
    TableMatch.Statement .ascPoll := fun _ => ⟨_, _, rfl, exactByte_matches _⟩

theorem TableMatch.rtuBeginSend :
    TableMatch.Statement .rtuBeginSend := fun _ => ⟨_, _, rfl, exactByte_matches _⟩

theorem TableMatch.ascBeginSend :
    TableMatch.Statement .ascBeginSend := fun _ => ⟨_, _, rfl, exactByte_matches _⟩

theorem TableMatch.rtuSend :
    TableMatch.Statement .rtuSend := fun _ => ⟨_, _, rfl, exactByte_matches _⟩

theorem TableMatch.ascSend :
    TableMatch.Statement .ascSend := fun _ => ⟨_, _, rfl, exactByte_matches _⟩

theorem TableMatch.rtuFinished :
    TableMatch.Statement .rtuFinished := fun _ => ⟨_, _, rfl, exactByte_matches _⟩

theorem TableMatch.ascFinished :
    TableMatch.Statement .ascFinished := fun _ => ⟨_, _, rfl, exactByte_matches _⟩

theorem TableMatch.bufRead (unit : FramerKind) (i : Word16) :
    TableMatch.Statement (.bufRead unit i) := fun _ => ⟨_, _, rfl, exactByte_matches _⟩

theorem TableMatch.bufWrite (unit : FramerKind) (i : Word16) (v : Byte) :
    TableMatch.Statement (.bufWrite unit i v) := fun _ => ⟨_, _, rfl, exactByte_matches _⟩

theorem TableMatch.setFrame (unit : FramerKind) (addr : Byte) (n : Word16) :
    TableMatch.Statement (.setFrame unit addr n) := fun _ => ⟨_, _, rfl, exactByte_matches _⟩

theorem TableMatch.readStatus (unit : FramerKind) :
    TableMatch.Statement (.readStatus unit) := fun _ => ⟨_, _, rfl, exactByte_matches _⟩

theorem TableMatch.mReset :
    TableMatch.Statement .mReset := fun _ => ⟨_, _, rfl, exactByte_matches _⟩

theorem TableMatch.mSetResponseTimeout (ms : Word32) :
    TableMatch.Statement (.mSetResponseTimeout ms) := fun _ => ⟨_, _, rfl, exactByte_matches _⟩

theorem TableMatch.mSetTurnaround (ms : Word32) :
    TableMatch.Statement (.mSetTurnaround ms) := fun _ => ⟨_, _, rfl, exactByte_matches _⟩

theorem TableMatch.mPoll :
    TableMatch.Statement .mPoll := fun _ => ⟨_, _, rfl, exactByte_matches _⟩

theorem TableMatch.mAckError :
    TableMatch.Statement .mAckError := fun _ => ⟨_, _, rfl, exactByte_matches _⟩

theorem TableMatch.mReadStatus :
    TableMatch.Statement .mReadStatus := fun _ => ⟨_, _, rfl, exactByte_matches _⟩

theorem TableMatch.readCoils (slave : Byte) (addr count : Word16) :
    TableMatch.Statement (.readCoils slave addr count) := fun _ => ⟨_, _, rfl, exactByte_matches _⟩

theorem TableMatch.readDiscreteInputs (slave : Byte) (addr count : Word16) :
    TableMatch.Statement (.readDiscreteInputs slave addr count) := fun _ => ⟨_, _, rfl, exactByte_matches _⟩

theorem TableMatch.readHoldingRegisters (slave : Byte) (addr count : Word16) :
    TableMatch.Statement (.readHoldingRegisters slave addr count) := fun _ => ⟨_, _, rfl, exactByte_matches _⟩

theorem TableMatch.readInputRegisters (slave : Byte) (addr count : Word16) :
    TableMatch.Statement (.readInputRegisters slave addr count) := fun _ => ⟨_, _, rfl, exactByte_matches _⟩

theorem TableMatch.writeSingleCoil (slave : Byte) (addr : Word16) (value : Byte) :
    TableMatch.Statement (.writeSingleCoil slave addr value) := fun _ => ⟨_, _, rfl, exactByte_matches _⟩

theorem TableMatch.writeSingleRegister (slave : Byte) (addr value : Word16) :
    TableMatch.Statement (.writeSingleRegister slave addr value) := fun _ => ⟨_, _, rfl, exactByte_matches _⟩

theorem TableMatch.writeMultipleCoils (slave : Byte) (addr count : Word16) (bits : List Byte) :
    TableMatch.Statement (.writeMultipleCoils slave addr count bits) := fun _ => ⟨_, _, rfl, exactByte_matches _⟩

theorem TableMatch.writeMultipleRegisters (slave : Byte) (addr count : Word16) (values : List Word16) :
    TableMatch.Statement (.writeMultipleRegisters slave addr count values) := fun _ => ⟨_, _, rfl, exactByte_matches _⟩

theorem TableMatch.readWriteMultipleRegisters (slave : Byte) (raddr rcount waddr wcount : Word16) (values : List Word16) :
    TableMatch.Statement (.readWriteMultipleRegisters slave raddr rcount waddr wcount values) := fun _ => ⟨_, _, rfl, exactByte_matches _⟩

theorem TableMatch.pduReqReadCoils (a q : Word16) :
    TableMatch.Statement (.pduReqReadCoils a q) := fun _ => ⟨_, _, rfl, exactByte_matches _⟩

theorem TableMatch.pduReqReadDiscreteInputs (a q : Word16) :
    TableMatch.Statement (.pduReqReadDiscreteInputs a q) := fun _ => ⟨_, _, rfl, exactByte_matches _⟩

theorem TableMatch.pduReqReadHoldingRegisters (a q : Word16) :
    TableMatch.Statement (.pduReqReadHoldingRegisters a q) := fun _ => ⟨_, _, rfl, exactByte_matches _⟩

theorem TableMatch.pduReqReadInputRegisters (a q : Word16) :
    TableMatch.Statement (.pduReqReadInputRegisters a q) := fun _ => ⟨_, _, rfl, exactByte_matches _⟩

theorem TableMatch.pduReqWriteSingleCoil (a v : Word16) :
    TableMatch.Statement (.pduReqWriteSingleCoil a v) := fun _ => ⟨_, _, rfl, exactByte_matches _⟩

theorem TableMatch.pduReqWriteSingleRegister (a v : Word16) :
    TableMatch.Statement (.pduReqWriteSingleRegister a v) := fun _ => ⟨_, _, rfl, exactByte_matches _⟩

theorem TableMatch.pduReqWriteMultipleCoils (a q : Word16) (bc : Byte) (d : List Byte) :
    TableMatch.Statement (.pduReqWriteMultipleCoils a q bc d) := fun _ => ⟨_, _, rfl, exactByte_matches _⟩

theorem TableMatch.pduReqWriteMultipleRegisters (a q : Word16) (bc : Byte) (values : List Word16) :
    TableMatch.Statement (.pduReqWriteMultipleRegisters a q bc values) := fun _ => ⟨_, _, rfl, exactByte_matches _⟩

theorem TableMatch.pduReqReadWriteMultipleRegisters (ra rq wa wq : Word16) (bc : Byte) (values : List Word16) :
    TableMatch.Statement (.pduReqReadWriteMultipleRegisters ra rq wa wq bc values) := fun _ => ⟨_, _, rfl, exactByte_matches _⟩

theorem TableMatch.pduRspReadCoils (bc : Byte) (d : List Byte) :
    TableMatch.Statement (.pduRspReadCoils bc d) := fun _ => ⟨_, _, rfl, exactByte_matches _⟩

theorem TableMatch.pduRspReadDiscreteInputs (bc : Byte) (d : List Byte) :
    TableMatch.Statement (.pduRspReadDiscreteInputs bc d) := fun _ => ⟨_, _, rfl, exactByte_matches _⟩

theorem TableMatch.pduRspReadHoldingRegisters (bc : Byte) (values : List Word16) :
    TableMatch.Statement (.pduRspReadHoldingRegisters bc values) := fun _ => ⟨_, _, rfl, exactByte_matches _⟩

theorem TableMatch.pduRspReadInputRegisters (bc : Byte) (values : List Word16) :
    TableMatch.Statement (.pduRspReadInputRegisters bc values) := fun _ => ⟨_, _, rfl, exactByte_matches _⟩

theorem TableMatch.pduRspWriteSingleCoil (a v : Word16) :
    TableMatch.Statement (.pduRspWriteSingleCoil a v) := fun _ => ⟨_, _, rfl, exactByte_matches _⟩

theorem TableMatch.pduRspWriteSingleRegister (a v : Word16) :
    TableMatch.Statement (.pduRspWriteSingleRegister a v) := fun _ => ⟨_, _, rfl, exactByte_matches _⟩

theorem TableMatch.pduRspWriteMultipleCoils (a q : Word16) :
    TableMatch.Statement (.pduRspWriteMultipleCoils a q) := fun _ => ⟨_, _, rfl, exactByte_matches _⟩

theorem TableMatch.pduRspWriteMultipleRegisters (a q : Word16) :
    TableMatch.Statement (.pduRspWriteMultipleRegisters a q) := fun _ => ⟨_, _, rfl, exactByte_matches _⟩

theorem TableMatch.pduRspReadWriteMultipleRegisters (bc : Byte) (values : List Word16) :
    TableMatch.Statement (.pduRspReadWriteMultipleRegisters bc values) := fun _ => ⟨_, _, rfl, exactByte_matches _⟩

theorem TableMatch.pduRspException (fc : BitVec 7) (code : Byte) :
    TableMatch.Statement (.pduRspException fc code) := fun _ =>
    ⟨_, _, rfl, exceptionByte_matches fc⟩

theorem TableMatch.pduRspOther (fc : Byte) (data : List Byte) :
    TableMatch.Statement (.pduRspOther fc data) := fun h => by
  simp only [Instr.wf, Bool.and_eq_true, decide_eq_true_eq] at h
  exact ⟨_, _, rfl, otherByte_matches fc h.1.1⟩

theorem TableMatch.rtuAdu (address : Byte) (pdu : List Byte) (crcLo crcHi : Byte) :
    TableMatch.Statement (.rtuAdu address pdu crcLo crcHi) := fun _ => ⟨_, _, rfl, by simp [rowByte]⟩

theorem TableMatch.asciiAdu (address : Byte) (pdu : List Byte) (lrc : Byte) :
    TableMatch.Statement (.asciiAdu address pdu lrc) := fun _ => ⟨_, _, rfl, exactByte_matches _⟩

end Sys2Proof.Laws
end

