-- ==== Sys2Proof/Tests/Slice0.lean ====
section
/-! SUPPORT. Tests: one ill-formed term for each check of `Instr.wf`; a message written out from the spec's encoding for
every constructor; single steps whose expected values stand in spec/95_test_vectors.md or in a rule's example (each test
names it); and, for every obligation with hypotheses, states and operands that meet them (`witness_…`). -/

namespace Sys2Proof.Tests

set_option Elab.async false

open Sys2Proof.Machine

/-! ### Helpers -/

/-- The RTU framer after RESET and SETUP(9600, 0, 0) at UPT 100: t15 = 18, t35 = 41 (95_test_vectors.md). -/
def rtu9600 : RtuFramer := { RtuFramer.reset 0 [] with configured := true, t15 := some 18, t35 := some 41, baud := 9600 }

/-- The block of the test vectors, with the master engine bound to `m`. -/
def block (m : Option FramerKind) : State :=
  { State.powerOn { Config.default with master := m } 0 with rtu := rtu9600 }

/-- `s` with the outside agents' answers: tick and bytes. -/
def at_ (now : Nat) (rx : List Byte) (s : State) : State :=
  { s with inputs := { Inputs.default with now := now, rx := rx } }

/-- The RTU framer in state `st`. -/
def rtuIn (st : RtuSt) (s : State) : State := { s with rtu := { s.rtu with st := st } }

/-- The ASCII framer in state `st`. -/
def ascIn (st : AscSt) (s : State) : State := { s with asc := { s.asc with st := st } }

/-- The master engine in state `st`, its request to station 1 stamped at `stamp`. -/
def mstIn (st : MstSt) (stamp : Nat) (s : State) : State := { s with mst := { s.mst with st := st, slave := 1, stamp := stamp } }

/-- The next state of one instruction. -/
def after (i : Instr) (s : State) : State :=
  match exec i s with
  | .next t => t
  | .fault _ | .refused _ => s

/-- A framer's PDU of `p`, sent or received. -/
def rtuHolds (a : Byte) (p : List Byte) (s : State) : State :=
  { s with rtu := { s.rtu with frameAddress := a, bufferLen := p.length, buf := Memory.writeList [] 0 p } }

/-- The same in the ASCII framer. -/
def ascHolds (a : Byte) (p : List Byte) (s : State) : State :=
  { s with asc := { s.asc with frameAddress := a, bufferLen := p.length, buf := Memory.writeList [] 0 p } }

/-! ### WellFormed refuses -/

/-- One ill-formed term for each check. -/
theorem test_ill_formed_terms_are_refused :
    ([.writeSingleCoil 1 0 2, .writeMultipleCoils 1 0 9 [0], .writeMultipleRegisters 1 0 2 [0],
      .readWriteMultipleRegisters 1 0 1 0 2 [0], .pduReqWriteSingleCoil 0 1, .pduReqWriteMultipleCoils 0 9 1 [0, 0],
      .pduReqWriteMultipleCoils 0 9 2 [0], .pduReqWriteMultipleRegisters 0 1 1 [0], .pduReqWriteMultipleRegisters 0 1 2 [],
      .pduReqReadWriteMultipleRegisters 0 1 0 1 1 [0], .pduReqReadWriteMultipleRegisters 0 1 0 1 2 [],
      .pduRspReadCoils 2 [0], .pduRspReadCoils 0 [], .pduRspReadDiscreteInputs 2 [0], .pduRspReadHoldingRegisters 1 [0],
      .pduRspReadHoldingRegisters 0 [], .pduRspReadInputRegisters 4 [0], .pduRspWriteSingleCoil 0 1,
      .pduRspReadWriteMultipleRegisters 0 [], .pduRspOther 0x83 [], .pduRspOther 0x03 [], .rtuAdu 1 [] 0 0,
      .asciiAdu 1 [] 0] : List Instr).all (fun i => !i.wf) = true := by decide +kernel

/-- A PDU of 253 bytes does not fit any frame (rule R146). -/
theorem test_long_pdus_are_refused :
    ([.rtuAdu 1 (List.replicate 253 0) 0 0, .asciiAdu 1 (List.replicate 253 0) 0, .pduRspOther 0 (List.replicate 252 0),
      .pduRspReadCoils 251 (List.replicate 251 0), .pduReqWriteMultipleRegisters 0 124 248 (List.replicate 124 0)] :
        List Instr).all (fun i => !i.wf) = true := by decide +kernel

/-! ### Every constructor's decoding, by a message written out from the spec's encoding -/

/-- Rule R170; the encodings of 95_test_vectors.md P1 and P6. -/
theorem test_decode_rtu_commands :
    [decode .rtu [0x00], decode .rtu [0x01, 0x00, 0x00, 0x25, 0x80, 0x00, 0x00, 0x0F, 0xA0, 0x00, 0x00, 0x05, 0xDC],
     decode .rtu [0x03, 0x05], decode .rtu [0x04], decode .rtu [0x05], decode .rtu [0x06], decode .rtu [0x07],
     decode .rtu [0x08, 0x01, 0x04], decode .rtu [0x09, 0x00, 0x04, 0xFF], decode .rtu [0x0A, 0x01, 0x00, 0x05],
     decode .rtu [0x0B]] =
    [some .rtuReset, some (.rtuSetup 9600 4000 1500), some (.rtuSetStationAddress 5), some .rtuPoll, some .rtuBeginSend,
     some .rtuSend, some .rtuFinished, some (.bufRead .rtu 0x104), some (.bufWrite .rtu 4 0xFF), some (.setFrame .rtu 1 5),
     some (.readStatus .rtu)] := by decide +kernel

/-- Rule R170; the encodings of P4. -/
theorem test_decode_ascii_commands :
    [decode .asc [0x00], decode .asc [0x02, 0x00, 0x01, 0x02, 0x03], decode .asc [0x03, 0x05], decode .asc [0x04],
     decode .asc [0x05], decode .asc [0x06], decode .asc [0x07], decode .asc [0x08, 0x00, 0x02],
     decode .asc [0x09, 0x00, 0x02, 0x0A], decode .asc [0x0A, 0x01, 0x00, 0x05], decode .asc [0x0B]] =
    [some .ascReset, some (.ascSetTimeout 0x010203), some (.ascSetStationAddress 5), some .ascPoll, some .ascBeginSend,
     some .ascSend, some .ascFinished, some (.bufRead .ascii 2), some (.bufWrite .ascii 2 10), some (.setFrame .ascii 1 5),
     some (.readStatus .ascii)] := by decide +kernel

/-- Rule R170; the encodings of P2, P3 and P5. -/
theorem test_decode_master_commands :
    [decode .mst [0x20], decode .mst [0x21, 0x00, 0x00, 0x00, 0x64], decode .mst [0x22, 0x00, 0x00, 0x03, 0xE8],
     decode .mst [0x23], decode .mst [0x24], decode .mst [0x25], decode .mst [0x31, 0x11, 0x00, 0x13, 0x00, 0x25],
     decode .mst [0x32, 0x01, 0x00, 0xC4, 0x00, 0x16], decode .mst [0x33, 0x01, 0x00, 0x00, 0x00, 0x02],
     decode .mst [0x34, 0x07, 0x00, 0x08, 0x00, 0x01], decode .mst [0x35, 0x01, 0x00, 0xAC, 0x01],
     decode .mst [0x36, 0x00, 0x00, 0x01, 0x12, 0x34], decode .mst [0x3F, 0x01, 0x00, 0x13, 0x00, 0x0A, 0xCD, 0x01],
     decode .mst [0x40, 0x01, 0x00, 0x01, 0x00, 0x02, 0x00, 0x0A, 0x01, 0x02],
     decode .mst [0x47, 0x01, 0x00, 0x03, 0x00, 0x06, 0x00, 0x0E, 0x00, 0x01, 0x00, 0xFF]] =
    [some .mReset, some (.mSetResponseTimeout 100), some (.mSetTurnaround 1000), some .mPoll, some .mAckError,
     some .mReadStatus, some (.readCoils 0x11 0x13 0x25), some (.readDiscreteInputs 1 0xC4 0x16),
     some (.readHoldingRegisters 1 0 2), some (.readInputRegisters 7 8 1), some (.writeSingleCoil 1 0xAC 1),
     some (.writeSingleRegister 0 1 0x1234), some (.writeMultipleCoils 1 0x13 10 [0xCD, 0x01]),
     some (.writeMultipleRegisters 1 1 2 [0x000A, 0x0102]),
     some (.readWriteMultipleRegisters 1 3 6 0x0E 1 [0x00FF])] := by decide +kernel

/-- Rule R148; the PDUs of the request ADUs of V22. -/
theorem test_decode_request_pdus :
    [decode .request [0x01, 0x00, 0x13, 0x00, 0x25], decode .request [0x02, 0x00, 0xC4, 0x00, 0x16],
     decode .request [0x03, 0x00, 0x00, 0x00, 0x02], decode .request [0x04, 0x00, 0x08, 0x00, 0x01],
     decode .request [0x05, 0x00, 0xAC, 0xFF, 0x00], decode .request [0x06, 0x00, 0x05, 0x00, 0xFF],
     decode .request [0x0F, 0x00, 0x13, 0x00, 0x0A, 0x02, 0xCD, 0x01],
     decode .request [0x10, 0x00, 0x01, 0x00, 0x02, 0x04, 0x00, 0x0A, 0x01, 0x02],
     decode .request [0x17, 0x00, 0x03, 0x00, 0x06, 0x00, 0x0E, 0x00, 0x03, 0x06, 0x00, 0xFF, 0x00, 0xFF, 0x00, 0xFF]] =
    [some (.pduReqReadCoils 0x13 0x25), some (.pduReqReadDiscreteInputs 0xC4 0x16), some (.pduReqReadHoldingRegisters 0 2),
     some (.pduReqReadInputRegisters 8 1), some (.pduReqWriteSingleCoil 0xAC 0xFF00),
     some (.pduReqWriteSingleRegister 5 0xFF), some (.pduReqWriteMultipleCoils 0x13 10 2 [0xCD, 0x01]),
     some (.pduReqWriteMultipleRegisters 1 2 4 [0x000A, 0x0102]),
     some (.pduReqReadWriteMultipleRegisters 3 6 0x0E 3 6 [0x00FF, 0x00FF, 0x00FF])] := by decide +kernel

/-- Rules R149, R150, R469; the reply PDUs of V90. -/
theorem test_decode_reply_pdus :
    [decode .reply [0x01, 0x01, 0x05], decode .reply [0x02, 0x03, 0xAC, 0xDB, 0x35],
     decode .reply [0x03, 0x04, 0x12, 0x34, 0x56, 0x78], decode .reply [0x04, 0x02, 0x00, 0x0A],
     decode .reply [0x05, 0x00, 0xAC, 0xFF, 0x00], decode .reply [0x06, 0x00, 0x05, 0x00, 0xFF],
     decode .reply [0x0F, 0x00, 0x13, 0x00, 0x0A], decode .reply [0x10, 0x00, 0x01, 0x00, 0x02],
     decode .reply [0x17, 0x02, 0x00, 0xFE], decode .reply [0x83, 0x02], decode .reply [0x2B, 0x0E, 0x01],
     decode .reply [0x03, 0x03, 0x12, 0x34, 0x56], decode .reply [0x83, 0x02, 0x00]] =
    [some (.pduRspReadCoils 1 [0x05]), some (.pduRspReadDiscreteInputs 3 [0xAC, 0xDB, 0x35]),
     some (.pduRspReadHoldingRegisters 4 [0x1234, 0x5678]), some (.pduRspReadInputRegisters 2 [0x000A]),
     some (.pduRspWriteSingleCoil 0xAC 0xFF00), some (.pduRspWriteSingleRegister 5 0xFF),
     some (.pduRspWriteMultipleCoils 0x13 10), some (.pduRspWriteMultipleRegisters 1 2),
     some (.pduRspReadWriteMultipleRegisters 2 [0x00FE]), some (.pduRspException 3 2), some (.pduRspOther 0x2B [0x0E, 0x01]),
     none, none] := by decide +kernel

/-- Rules R140, R143; the frames of V1, V22 and V4, and a lower-case frame (V60). -/
theorem test_decode_adus :
    [decode .rtuLine [0x01, 0x07, 0x41, 0xE2], decode .rtuLine [0x01, 0x07, 0x41],
     decode .ascLine [0x3A, 0x30, 0x31, 0x30, 0x33, 0x46, 0x43, 0x0D, 0x0A],
     decode .ascLine [0x3A, 0x30, 0x31, 0x30, 0x33, 0x66, 0x63, 0x0D, 0x0A],
     decode .ascLine [0x3A, 0x30, 0x31, 0x30, 0x33, 0x46, 0x43, 0x0A]] =
    [some (.rtuAdu 1 [0x07] 0x41 0xE2), none, some (.asciiAdu 1 [0x03] 0xFC), some (.asciiAdu 1 [0x03] 0xFC), none] := by
  decide +kernel

/-! ### Checks and timing (V20 to V23, V30, V31, R691) -/

/-- V20, V21. -/
theorem test_crc_values :
    [crc16 [0x01], crc16 [0x01, 0x03, 0x00, 0x00, 0x00, 0x02], crc16 [0x01, 0x03, 0x00, 0x00, 0x00, 0x02, 0xC4, 0x0B],
     crc16 [], crc16 [0x00], crc16 [0xFF], crc16 [0x31, 0x32, 0x33, 0x34, 0x35, 0x36, 0x37, 0x38, 0x39]] =
    [0x807E, 0x0BC4, 0x0000, 0xFFFF, 0x40BF, 0x00FF, 0x4B37] := by decide +kernel

/-- V23. -/
theorem test_lrc_values :
    [lrcOf 0x01 [0x03, 0x00, 0x00, 0x00, 0x02], lrcOf 0x01 [0x03, 0x04, 0x12, 0x34, 0x56, 0x78], lrcOf 0x01 [0x83, 0x02]] =
    [0xFA, 0xE4, 0x7A] := by decide +kernel

/-- V30: (9600, 0, 0), (115200, 0, 0), (0, 4000, 1500), (9600, 0, 5000). -/
theorem test_rtu_setup_windows :
    ([Instr.rtuSetup 9600 0 0, .rtuSetup 115200 0 0, .rtuSetup 0 4000 1500, .rtuSetup 9600 0 5000].map fun i =>
      ((after i State.reset).rtu.t15, (after i State.reset).rtu.t35)) =
    [(some 18, some 41), (some 8, some 18), (some 15, some 40), (some 50, some 41)] := by decide +kernel

/-- V30: (0, 0, 0) is invalid. -/
theorem test_rtu_setup_invalid :
    (after (.rtuSetup 0 0 0) State.reset).rtu.st = .exception ∧
    (after (.rtuSetup 0 0 0) State.reset).events = [.cause .rtu .config] := by decide +kernel

/-- V31: SET_TIMEOUT(0), (1) and (250) at UPT 100. -/
theorem test_ascii_set_timeout :
    ([0, 1, 250].map fun ms => (after (.ascSetTimeout ms) State.reset).asc.timeoutTicks) = [2, 10, 2500] := by decide +kernel

/-- V31: M_SET_RESPONSE_TIMEOUT(200) and M_SET_TURNAROUND(0) at UPT 100. -/
theorem test_master_timeouts :
    (after (.mSetResponseTimeout 200) State.reset).mst.rtTicks = 2000 ∧
    (after (.mSetTurnaround 0) State.reset).mst.taTicks = 0 := by decide +kernel

/-! ### Single steps -/

/-- V95: RTU RESET at tick 7. -/
theorem test_rtu_reset :
    (after .rtuReset (at_ 7 [] (rtuIn .txPdu (block none)))).rtu = RtuFramer.reset 7 [] ∧
    (after .rtuReset (at_ 7 [] (block none))).rtu.last = 7 := by decide +kernel

/-- V31: ASCII RESET at UPT 0. -/
theorem test_ascii_reset_without_clock :
    (after .ascReset { State.reset with cfg := { Config.default with usPerTick := 0 } }).asc.st = .exception := by decide +kernel

/-- V95: M_RESET at UPT 100. -/
theorem test_m_reset :
    (after .mReset (mstIn .processingError 5 (block (some .rtu)))).mst.rtTicks = 2000 ∧
    (after .mReset (mstIn .processingError 5 (block (some .rtu)))).mst.slave = 0 := by decide +kernel

/-- Rule R216's example: byte 0x01 in `idle`; rule R226's: such a POLL returns t15. -/
theorem test_rtu_poll_first_byte :
    (after .rtuPoll (at_ 100 [0x01] (block none))).rtu.crc = 0x807E ∧
    (after .rtuPoll (at_ 100 [0x01] (block none))).result = .ticks 18 := by decide +kernel

/-- V1 in one command: the frame, then T3.5 of silence. -/
theorem test_rtu_adu_received :
    (after (.rtuAdu 0x01 [0x03, 0x00, 0x00, 0x00, 0x02] 0xC4 0x0B) (at_ 10 [] (block none))).rtu.st = .frameReady ∧
    (after (.rtuAdu 0x01 [0x03, 0x00, 0x00, 0x00, 0x02] 0xC4 0x0B) (at_ 10 [] (block none))).rtu.buf.readRange 0 5 =
      some [0x03, 0x00, 0x00, 0x00, 0x02] := by decide +kernel

/-- V2: the last byte corrupted. -/
theorem test_rtu_adu_corrupted :
    (after (.rtuAdu 0x01 [0x03, 0x00, 0x00, 0x00, 0x02] 0xC4 0x0C) (at_ 10 [] (block none))).events =
      [.cause .rtu .crc] := by decide +kernel

/-- V4, V5. -/
theorem test_ascii_adu :
    (after (.asciiAdu 0x01 [0x03, 0x00, 0x00, 0x00, 0x02] 0xFA) (at_ 10 [] (block none))).events = [.frameReady .ascii] ∧
    (after (.asciiAdu 0x01 [0x03, 0x00, 0x00, 0x00, 0x02] 0xF4) (at_ 10 [] (block none))).events =
      [.cause .ascii .lrc] := by decide +kernel

/-- V60: `:0103` from `idle`. -/
theorem test_ascii_poll_partial_frame :
    (after .ascPoll (at_ 10 [0x3A, 0x30, 0x31, 0x30, 0x33] (block none))).asc.pend = 0x03 ∧
    (after .ascPoll (at_ 10 [0x3A, 0x30, 0x31, 0x30, 0x33] (block none))).result = .ticks 10000 := by decide +kernel

/-- V41: a byte in `frame_ready`; V50, POLL@9: an echo in `tx_drain`, dropped as the drain ends. -/
theorem test_rtu_poll_unexpected_bytes :
    (after .rtuPoll (at_ 100 [0x55] (rtuHolds 1 [0x07] (rtuIn .frameReady (block none))))).rtu.st = .collision ∧
    (let s := rtuHolds 1 [0x06, 0x00, 0x05, 0x00, 0xFF] (rtuIn .txDrain (block none))
     let t := after .rtuPoll { s with inputs := { Inputs.default with now := 9, rx := [0x01], writeComplete := true } }
     t.rtu.st = .txWait ∧ t.rtu.last = 9 ∧ t.result = .ticks 41) := by decide +kernel

/-- P6: SEND with `tx-accept: 3`. -/
theorem test_rtu_send_three_bytes :
    (after .rtuSend { rtuHolds 1 [0x06, 0x00, 0x05, 0x00, 0xFF] (rtuIn .queue (block none)) with
      inputs := { Inputs.default with now := 6, txAccept := some 3 } }).rtuLine = [0x01, 0x06, 0x00] ∧
    (after .rtuSend { rtuHolds 1 [0x06, 0x00, 0x05, 0x00, 0xFF] (rtuIn .queue (block none)) with
      inputs := { Inputs.default with now := 6, txAccept := some 3 } }).rtu.txIndex = 2 := by decide +kernel

/-- V50: a write error on the third offer. -/
theorem test_rtu_send_write_error :
    (after .rtuSend { rtuHolds 1 [0x07] (rtuIn .queue (block none)) with
      inputs := { Inputs.default with txAccept := some 2, txError := true } }).rtu.st = .idle ∧
    (after .rtuSend { rtuHolds 1 [0x07] (rtuIn .queue (block none)) with
      inputs := { Inputs.default with txAccept := some 2, txError := true } }).rtuLine = [0x01, 0x07] := by decide +kernel

/-- V70: SEND with `tx-accept: 4`. -/
theorem test_ascii_send_four_characters :
    (after .ascSend { ascHolds 1 [0x03, 0x00, 0x00, 0x00, 0x02] (ascIn .queue (block none)) with
      inputs := { Inputs.default with txAccept := some 4 } }).ascLine = [0x3A, 0x30, 0x31, 0x30] ∧
    (after .ascSend { ascHolds 1 [0x03, 0x00, 0x00, 0x00, 0x02] (ascIn .queue (block none)) with
      inputs := { Inputs.default with txAccept := some 4 } }).asc.st = .txPduLow := by decide +kernel

/-- V50: SEND of bytes nothing has written; V50: BUF_READ in `idle`. -/
theorem test_unwritten_and_ownership :
    (after .rtuSend { rtuIn .queue (block none) with rtu := { (rtuIn .queue (block none)).rtu with bufferLen := 3 } }).fault =
      some .unwritten ∧
    (after (.bufRead .rtu 0) (block none)).fault = some .ownership := by decide +kernel

/-- P1: BUF_READ(4) in `frame_ready`; P6: BUF_WRITE and SET_FRAME in `queue`. -/
theorem test_buffer_commands :
    (after (.bufRead .rtu 4) (rtuHolds 1 [0x03, 0x00, 0x00, 0x00, 0x02] (rtuIn .frameReady (block none)))).result = .byte 0x02 ∧
    (after (.bufWrite .ascii 0 0x06) (ascIn .queue (block none))).asc.buf = [(0, 0x06)] ∧
    (after (.setFrame .rtu 1 5) (rtuIn .queue (block none))).rtu.bufferLen = 5 := by decide +kernel

/-- V95: READ_STATUS after RESET of each framer, M_READ_STATUS after M_RESET. -/
theorem test_status_reads :
    (after (.readStatus .rtu) State.reset).result = .status ⟨2, 0, 0, false, false⟩ ∧
    (after (.readStatus .ascii) State.reset).result = .status ⟨1, 0, 0, false, true⟩ ∧
    (after .mReadStatus State.reset).result = .masterStatus 0 0 := by decide +kernel

/-- V80: the ADU and the context of WRITE_MULTIPLE_COILS(1, 0x13, 10, [CD, FD]). -/
theorem test_write_multiple_coils :
    (after (.writeMultipleCoils 1 0x13 10 [0xCD, 0xFD]) (block (some .rtu))).rtuLine =
      [0x01, 0x0F, 0x00, 0x13, 0x00, 0x0A, 0x02, 0xCD, 0x01, 0x72, 0xCB] ∧
    (after (.writeMultipleCoils 1 0x13 10 [0xCD, 0xFD]) (block (some .rtu))).mst.writeCount = 10 := by decide +kernel

/-- V80: READ_WRITE_MULTIPLE_REGISTERS. -/
theorem test_read_write_multiple_registers :
    (after (.readWriteMultipleRegisters 1 3 6 0x0E 3 [0xFF, 0xFF, 0xFF]) (block (some .rtu))).rtuLine =
      [0x01, 0x17, 0x00, 0x03, 0x00, 0x06, 0x00, 0x0E, 0x00, 0x03, 0x06, 0x00, 0xFF, 0x00, 0xFF, 0x00, 0xFF, 0x46, 0x91] := by
  decide +kernel

/-- V80: READ_INPUT_REGISTERS(1, 8, 1) and WRITE_SINGLE_COIL(1, 0xAC, 1). -/
theorem test_simple_requests :
    (after (.readInputRegisters 1 8 1) (block (some .rtu))).rtuLine = [0x01, 0x04, 0x00, 0x08, 0x00, 0x01, 0xB0, 0x08] ∧
    (after (.writeSingleCoil 1 0xAC 1) (block (some .rtu))).rtuLine = [0x01, 0x05, 0x00, 0xAC, 0xFF, 0x00, 0x4C, 0x1B] := by
  decide +kernel

/-- V81: counts 126 and 2001 are refused. -/
theorem test_counts_refused :
    (after (.readHoldingRegisters 1 0 126) (block (some .rtu))).result = .bool false ∧
    (after (.readCoils 1 0 2001) (block (some .rtu))).result = .bool false := by decide +kernel

/-- V90: a reply to READ_HOLDING_REGISTERS(1, 0, 2). -/
theorem test_reply_holding_registers :
    (after (.pduRspReadHoldingRegisters 4 [0x1234, 0x5678]) { mstIn .waitingForReply 100 (block (some .rtu)) with
      inputs := { Inputs.default with now := 150, address := 1 } }).events =
      [.frameReady .rtu, .responseRegisters 0x03 0 2 [0x1234, 0x5678], .verdict true] := by decide +kernel

/-- V90: an exception reply and a function code outside the nine. -/
theorem test_reply_exception_and_other :
    (after (.pduRspException 3 2) { mstIn .waitingForReply 100 (block (some .rtu)) with
      inputs := { Inputs.default with now := 150, address := 1, verdict := false } }).mst.st = .processingError ∧
    (after (.pduRspOther 0x2B [0x0E, 0x01]) { mstIn .waitingForReply 100 (block (some .rtu)) with
      inputs := { Inputs.default with now := 150, address := 1 } }).events = [.frameReady .rtu, .malformed] := by
  decide +kernel

/-- V91: the right frame from the wrong station. -/
theorem test_stale_frame :
    (after (.pduRspReadHoldingRegisters 4 [0x1234, 0x5678]) { mstIn .waitingForReply 0 (block (some .rtu)) with
      inputs := { Inputs.default with now := 150, address := 2 } }).mst.stamp = 191 := by decide +kernel

/-- V12: `rt_ticks = 2000`, stamp 100. -/
theorem test_m_poll_response_timeout :
    (after .mPoll (at_ 2100 [] (mstIn .waitingForReply 100 (block (some .rtu))))).result = .ticks 1 ∧
    (after .mPoll (at_ 2101 [] (mstIn .waitingForReply 100 (block (some .rtu))))).events = [.timeout, .verdict true] := by
  decide +kernel

/-- Rules R170, R471: with a saturated timeout, which `e` never exceeds, M_POLL at the stamp returns 0, W bits wide. -/
theorem test_m_poll_result_width :
    (after .mPoll { mstIn .waitingForReply 0 State.reset with
      mst := { (mstIn .waitingForReply 0 State.reset).mst with rtTicks := 65535 } }).result = .ticks 0 := by decide +kernel

/-- V91: M_ACK_ERROR. -/
theorem test_m_ack_error :
    (after .mAckError (mstIn .processingError 0 (block (some .rtu)))).events = [.ack] ∧
    (after .mAckError (block (some .rtu))).result = .bool false := by decide +kernel

/-- V50: POLL before SETUP faults, and no later command acts. -/
theorem test_fault_is_kept :
    (after .rtuPoll State.reset).fault = some .notConfigured ∧
    (after .rtuReset (after .rtuPoll State.reset)).fault = some .notConfigured := by decide +kernel

/-! ### Witnesses: states and operands that meet the hypotheses of the obligations, clause by clause, at the ends of their
ranges -/

/-- The block with the RTU framer in `st` and nothing on its line at tick `now`. -/
def quiet (st : RtuSt) (now : Nat) : State := at_ now [] (rtuIn st (block none))

/-- The block with the ASCII framer in `st` and nothing on its line at tick `now`. -/
def still (st : AscSt) (now : Nat) : State := at_ now [] (ascIn st (block none))

/-- A request PDU of five bytes. -/
def readPdu : List Byte := [0x03, 0x00, 0x00, 0x00, 0x02]

/-- The RTU framer holds the PDU `readPdu` and has sent `m` bytes of its ADU. -/
def rtuSending (m : Nat) : State :=
  let s := rtuHolds 1 readPdu (block none)
  { s with rtu := { s.rtu with
      st := (rtuSentAt s.cfg 5 m).1, txIndex := (rtuSentAt s.cfg 5 m).2, txen := true, txCrc := crc16 (1 :: readPdu) } }

/-- The ASCII framer holds the PDU `readPdu` and has sent `m` characters of its ADU. -/
def ascSending (m : Nat) : State :=
  let s := ascHolds 1 readPdu (block none)
  { s with asc := { s.asc with st := (ascSentAt 5 m).1, txIndex := (ascSentAt 5 m).2, txen := true, txLrc := lrcOf 1 readPdu } }

/-- The RTU framer has received the first six bytes of a frame. -/
def rtuReceiving : State :=
  after .rtuPoll (at_ 0 [0x01, 0x03, 0x00, 0x00, 0x00, 0x02] (block none))

/-- The ASCII framer has received the first seven characters of a frame. -/
def ascReceiving : State :=
  after .ascPoll (at_ 0 [0x3A, 0x30, 0x31, 0x30, 0x33, 0x30, 0x30] (block none))

/-- The bytes of a frame whose end is near: a whole frame, no silence yet. -/
def rtuWhole (m : Option FramerKind) : State :=
  after .rtuPoll (at_ 0 [0x01, 0x03, 0x00, 0x00, 0x00, 0x02, 0xC4, 0x0B] (block m))

/-- The characters of a whole frame but for LF. -/
def ascWhole : State :=
  after .ascPoll (at_ 0 [0x3A, 0x30, 0x31, 0x30, 0x33, 0x30, 0x30, 0x30, 0x30, 0x30, 0x30, 0x30, 0x32, 0x46, 0x41, 0x0D]
    (block none))

/-- EveryInstructionDecodesBack: the longest operands of each kind, and the shortest. -/
theorem witness_encodable_instructions :
    ([.rtuSetup 0xFFFFFFFF 0 0xFFFFFFFF, .bufWrite .ascii 0xFFFF 0, .writeSingleCoil 0xFF 0xFFFF 1,
      .writeMultipleCoils 0 0 2040 (List.replicate 255 0xFF), .writeMultipleRegisters 0 0 0 [],
      .readWriteMultipleRegisters 0 0 0 0 130 (List.replicate 130 0xFFFF),
      .pduReqWriteMultipleCoils 0 1968 246 (List.replicate 246 0xFF),
      .pduReqWriteMultipleRegisters 0 123 246 (List.replicate 123 1),
      .pduReqReadWriteMultipleRegisters 0 0 0 121 242 (List.replicate 121 1), .pduRspReadCoils 250 (List.replicate 250 1),
      .pduRspReadHoldingRegisters 250 (List.replicate 125 1), .pduRspWriteSingleCoil 0 0xFF00, .pduRspException 0x7F 0xFF,
      .pduRspOther 0x7F (List.replicate 251 0), .rtuAdu 0xFF (List.replicate 252 0) 0 0,
      .asciiAdu 0xFF (List.replicate 252 0xFF) 0, .rtuAdu 0 [0] 0 0, .pduRspReadCoils 1 [0]] : List Instr).all
        Instr.wf = true := by decide +kernel

/-- EveryMessageIsItsInstructionsEncoding: a message of a line in lower case, one of another port. -/
theorem witness_decoded_messages :
    decode .ascLine [0x3A, 0x61, 0x31, 0x30, 0x33, 0x35, 0x63, 0x0D, 0x0A] = some (.asciiAdu 0xA1 [0x03] 0x5C) ∧
    decode .rtuLine [0x01, 0x07, 0x41, 0xE2] = some (.rtuAdu 1 [0x07] 0x41 0xE2) ∧
    decode .mst [0x40, 0x01, 0x00, 0x01, 0x00, 0x00] = some (.writeMultipleRegisters 1 1 0 []) := by decide +kernel

/-- CommandDecoderRefusals. -/
theorem witness_refused_commands :
    (0x0C ≤ (0x0C#8).toNat ∧ 0x0C ≤ (0xFF#8).toNat) ∧
    ([0x00, 0x0B, 0x1F, 0x26, 0x30, 0x37, 0x3E, 0x41, 0x46, 0x48, 0xFF].all fun n =>
      decide (n ∉ [0x20, 0x21, 0x22, 0x23, 0x24, 0x25, 0x31, 0x32, 0x33, 0x34, 0x35, 0x36, 0x3F, 0x40, 0x47])) = true ∧
    ((0x02#8 : Byte) ≠ 0x00#8 ∧ (0xFF#8 : Byte) ≠ 0x01#8) ∧
    (([] : List Byte).length < ((be16 0 1).toNat + 7) / 8 ∧ ([0#8] : List Byte).length < ((be16 0 9).toNat + 7) / 8) ∧
    ([0#8] : List Byte).length < 2 * (be16 0 1).toNat ∧
    ((block none).fault = none ∧ decode .rtu [0x02, 0, 0, 0, 0] = none ∧ decode .mst [] = none) ∧
    ((block none).cfg.master = none ∧ portOf .mPoll = .mst) := by decide +kernel

/-- StepRunsTheNextMessage and FaultIsAbsorbing: a message that decodes is issued, with and without a fault recorded. -/
theorem witness_issued_message :
    let r : Request := ⟨.rtu, [0x04], Inputs.default⟩
    let s : State := { block none with pending := [r] }
    s.pending = r :: [] ∧ decode r.port r.message = some .rtuPoll ∧ (block none).pending = [] ∧
    (s.raise .ownership).fault ≠ none := by decide +kernel

/-- TableWordRunsAsItsInstruction: a word of one byte, one of two, and one completed with zeros. -/
theorem witness_table_words :
    decodeTableWord 8 0x04 = some .rtuPoll ∧ decodeTableWord 16 0x0202 = some (.ascSetTimeout 0x02000000) ∧
    decodeTableWord 8 0x31 = some (.readCoils 0 0 0) ∧ decodeTableWord 8 0x83 = some (.pduRspException 3 0) ∧
    decodeTableWord 8 0x41 = some (.pduRspOther 0x41 []) := by decide +kernel

/-- InvariantAtPowerOn, TimingConversions: parameters at the ends of rule R10's ranges; PowerOnState has no hypotheses. -/
theorem witness_parameters :
    Config.default.wf = true ∧
    Config.wf { tickWidth := 8, usPerTick := 0, bufferMax := 1, minPdu := 1, fixedTimingBaud := 1, master := none } = true ∧
    Config.wf { tickWidth := 64, usPerTick := 1, bufferMax := 65535, minPdu := 252, fixedTimingBaud := 22000,
                master := some .ascii } = true := by decide

/-- The RTU framer's invariant in the middle of a frame that arrives. -/
theorem rtuInv_receiving : RtuInv (block (some .rtu)).cfg rtuReceiving.rtu := by
  constructor <;>
    first
      | decide +kernel
      | exact fun _ _ => ⟨18, 41, rfl, rfl, by decide⟩
      | refine fun h => absurd h ?_; decide +kernel

/-- The RTU framer's invariant while it offers the last byte of the CRC. -/
theorem rtuInv_sending : RtuInv (block (some .rtu)).cfg (rtuSending 7).rtu := by
  constructor <;>
    first
      | decide +kernel
      | exact fun _ _ => ⟨18, 41, rfl, rfl, by decide⟩
      | exact fun _ => ⟨by decide +kernel, readPdu, by decide +kernel⟩

/-- The ASCII framer's invariant in the middle of a frame that arrives. -/
theorem ascInv_receiving : AscInv (block (some .rtu)).cfg ascReceiving.asc := by
  constructor <;>
    first
      | decide +kernel
      | refine fun h => absurd h ?_; decide +kernel

/-- The ASCII framer's invariant while it offers a low digit of the PDU. -/
theorem ascInv_sending : AscInv (block (some .rtu)).cfg (ascSending 12).asc := by
  constructor <;>
    first
      | decide +kernel
      | exact fun _ => ⟨by decide +kernel, readPdu, by decide +kernel⟩

/-- The master engine's invariant after M_RESET. -/
theorem mstInv_reset : MstInv (block (some .rtu)).cfg (block (some .rtu)).mst := by constructor <;> decide +kernel

/-- A state with both framers at work, and a POLL issued to each. -/
def busy (r : RtuFramer) (a : AscFramer) : State :=
  { block (some .rtu) with rtu := r, asc := a, pending := [⟨.rtu, [0x04], Inputs.default⟩, ⟨.asc, [0x04], Inputs.default⟩] }

/-- It meets the invariant where each unit does. -/
theorem busy_inv {r : RtuFramer} {a : AscFramer} (hr : RtuInv (block (some .rtu)).cfg r)
    (ha : AscInv (block (some .rtu)).cfg a) (h : ¬(r.st = .frameReady ∨ r.st = .collision)) : (busy r a).Inv :=
  ⟨(by decide : (block (some .rtu)).cfg.wf = true), hr, ha, mstInv_reset, by intro u hu; cases hu; exact h⟩

/-- InvariantKeptByEveryStep, RtuPollAnswersItsDeadline, AsciiPollAnswersItsDeadline: both framers receive. -/
theorem witness_invariant_receiving :
    (busy rtuReceiving.rtu ascReceiving.asc).Inv ∧ (busy rtuReceiving.rtu ascReceiving.asc).fault = none ∧
    (busy rtuReceiving.rtu ascReceiving.asc).rtu.configured = true ∧
    ∃ t, step (busy rtuReceiving.rtu ascReceiving.asc) = .next t :=
  ⟨busy_inv rtuInv_receiving ascInv_receiving (by decide +kernel), by decide +kernel, by decide +kernel, step_next _⟩

/-- The same three: both framers transmit. -/
theorem witness_invariant_sending :
    (busy (rtuSending 7).rtu (ascSending 12).asc).Inv ∧ (busy (rtuSending 7).rtu (ascSending 12).asc).fault = none ∧
    (busy (rtuSending 7).rtu (ascSending 12).asc).rtu.configured = true :=
  ⟨busy_inv rtuInv_sending ascInv_sending (by decide +kernel), by decide +kernel, by decide +kernel⟩

/-- RtuResetCommand, AsciiResetCommand, MasterControlCommands, SetStationAddressCommands, ReadStatusCommands: no fault; no
SETUP; a master engine, in each of its states. -/
theorem witness_units :
    (State.reset.fault = none ∧ State.reset.rtu.configured = false ∧ State.reset.cfg.master ≠ none) ∧
    ([MstSt.idle, .waitingForReply, .processingReply, .waitingTurnaroundReply, .processingError].all fun st =>
      decide ((mstIn st 0 State.reset).fault = none ∧ (mstIn st 0 State.reset).mst.st = st)) = true := by decide +kernel

/-- BufferReadsWhatWasWritten, SingleBitErrorsAreDetected, UnusedCoilBitsAreCleared, TickDifference, TimingConversions. -/
theorem witness_operands :
    (Memory.wf [] = true ∧ Memory.wf [(0, 0x01), (5, 0x02)] = true) ∧
    (0 < (rtuAduOf 1 []).length ∧ 4 < (rtuAduOf 1 [0x07, 0x00]).length ∧ 7 < 8) ∧
    (([] : List Byte).length = ((0#16).toNat + 7) / 8 ∧ ([0xFF] : List Byte).length = ((8#16).toNat + 7) / 8 ∧
      ([0xCD, 0xFD] : List Byte).length = ((9#16).toNat + 7) / 8 ∧ 15 < 8 * ([0xCD, 0xFD] : List Byte).length) ∧
    65535 < 2 ^ Config.default.tickWidth ∧
    (Config.default.fixedTimingBaud = 22000 ∧ Config.default.usPerTick ≠ 0 ∧ Config.default.wf = true) := by decide +kernel

/-- The block with no tick clock. -/
def clockless : State := { block none with cfg := { Config.default with usPerTick := 0, master := none } }

/-- SetupCommand, SetTimeoutCommand: invalid and valid arguments; `exception` and another state. -/
theorem witness_setup :
    (clockless.cfg.usPerTick = 0 ∧ clockless.fault = none) ∧
    ([((0 : Word32), (0 : Word32), (0 : Word32)), (0, 1, 0), (0, 0, 1)].all fun a =>
      decide (a.1 = 0#32 ∧ (a.2.1 = 0#32 ∨ a.2.2 = 0#32))) = true ∧
    ([((0 : Word32), (1 : Word32), (1 : Word32)), (1, 0, 0), (21999, 0, 0), (22000, 0, 0), (0xFFFFFFFF, 0, 0)].all fun a =>
      decide (¬((block none).cfg.usPerTick = 0 ∨ (a.1 = 0#32 ∧ (a.2.1 = 0#32 ∨ a.2.2 = 0#32))))) = true ∧
    ((ascIn .exception (block none)).cfg.usPerTick ≠ 0 ∧ (ascIn .exception (block none)).asc.st = .exception ∧
      (block none).asc.st ≠ .exception) := by decide +kernel

/-- BufReadCommand, BufWriteCommand: each check fails first somewhere, and none does, for both framers. -/
theorem witness_buffer_access :
    let s := rtuHolds 1 [0x07] (rtuIn .frameReady (block none))
    let t := ascHolds 1 [0x07] (ascIn .collision (block none))
    (s.fault = none ∧ s.rtu.configured = true ∧ s.rtu.st = .frameReady ∧ (s.buf .rtu).read (0#16).toNat = some 0x07) ∧
    (s.cfg.bufferMax ≤ (256#16).toNat ∧ (255#16).toNat < s.cfg.bufferMax ∧ (s.buf .rtu).read (255#16).toNat = none) ∧
    (t.asc.st = .collision ∧ (t.buf .ascii).read (0#16).toNat = some 0x07 ∧ (t.buf .ascii).read (1#16).toNat = none) ∧
    ((block none).rtu.st = .idle ∧ (block none).asc.st = .idle) := by decide +kernel

/-- SetFrameCommand: CAP and CAP + 1 bytes in `queue`. -/
theorem witness_set_frame :
    (rtuIn .queue (block none)).rtu.st = .queue ∧ (ascIn .queue (block none)).asc.st = .queue ∧
    (252#16).toNat ≤ min (block none).cfg.bufferMax 252 ∧ min (block none).cfg.bufferMax 252 < (253#16).toNat ∧
    (block none).rtu.st ≠ .queue := by decide +kernel

/-- BeginSendCommands, FinishedCommands, PollWithNothingToDo: each group of states. -/
theorem witness_framer_states :
    ([RtuSt.exception, .dump, .idle, .frameReady, .queue, .collision, .receive, .txAddr, .txPdu, .txCrc, .txDrain,
      .txWait].all fun st => decide ((quiet st 9).rtu.st = st ∧ (quiet st 9).rtu.configured = true ∧
        (quiet st 9).fault = none ∧ (quiet st 9).inputs.rx = [] ∧ (quiet st 9).inputs.rxError = false)) = true ∧
    ([AscSt.exception, .idle, .frameReady, .queue, .collision, .rxAddrHigh, .rxAddrLow, .rxPduHigh, .rxPduLow, .rxCr,
      .txSof, .txAddrHigh, .txAddrLow, .txPduHigh, .txPduLow, .txLrcHigh, .txLrcLow, .txCr, .txLf, .txWait].all fun st =>
        decide ((still st 9).asc.st = st ∧ (still st 9).fault = none ∧ (still st 9).inputs.rx = [] ∧
          (still st 9).inputs.rxError = false)) = true := by decide +kernel

/-- SendRefusals: an empty PDU, and one whose last byte nothing has written. -/
theorem witness_send_refusals :
    let s := rtuHolds 1 [0x07] (rtuIn .queue (block none))
    let t := ascHolds 1 [0x07] (ascIn .queue (block none))
    ((rtuIn .queue (block none)).rtu.st = .queue ∧ (rtuIn .queue (block none)).rtu.bufferLen = 0) ∧
    ((ascIn .queue (block none)).asc.st = .queue ∧ (ascIn .queue (block none)).asc.bufferLen = 0) ∧
    (∃ i, i < 2 ∧ s.rtu.buf.read i = none) ∧ (∃ i, i < 2 ∧ t.asc.buf.read i = none) ∧
    (∃ i, i < (s.setFrameFields .rtu 1 2).rtu.bufferLen ∧ (s.setFrameFields .rtu 1 2).rtu.buf.read i = none) ∧
    ∃ i, i < (t.setFrameFields .ascii 1 2).asc.bufferLen ∧ (t.setFrameFields .ascii 1 2).asc.buf.read i = none :=
  ⟨by decide, by decide, ⟨1, by decide⟩, ⟨1, by decide⟩, ⟨1, by decide⟩, ⟨1, by decide⟩⟩

/-- RtuSendTransmitsTheAdu, AsciiSendTransmitsTheAdu: PDUs of 1 and of 252 bytes. With CAP 1, SEND runs to `tx_drain` and
`rtu.tx_index` stays in the range of rule R47. -/
theorem witness_send :
    ([[0x07], List.replicate 252 0xA5].all fun p =>
      let s := rtuHolds 1 p (rtuIn .queue (block none))
      let t := ascHolds 1 p (ascIn .queue (block none))
      decide (s.fault = none ∧ s.rtu.configured = true ∧ s.rtu.st = .queue ∧ 1 ≤ s.rtu.bufferLen ∧
        s.rtu.bufferLen ≤ s.cfg.bufferMax ∧ s.rtu.buf.readRange 0 s.rtu.bufferLen = some p) &&
      decide (t.fault = none ∧ t.asc.st = .queue ∧ 1 ≤ t.asc.bufferLen ∧ t.asc.bufferLen ≤ t.cfg.bufferMax ∧
        t.asc.buf.readRange 0 t.asc.bufferLen = some p)) = true ∧
    (let s := rtuHolds 1 [0x07] (rtuIn .queue { block none with cfg := { Config.default with master := none, bufferMax := 1 } })
     cap s.cfg = 1 ∧ (after .rtuSend s).rtu.st = .txDrain ∧ (after .rtuSend s).rtuLine = [0x01, 0x07, 0x41, 0xE2] ∧
       (after .rtuSend s).rtu.txIndex ≤ 1) := by decide +kernel

/-- RtuPollResumesTheAdu: every byte at which the ADU of a PDU of five bytes can stand, while the stream returns an echo byte
and then an ERROR. -/
theorem witness_rtu_resume :
    ((List.range 9).all fun m =>
      let s := (rtuSending m).hearing [0x01] true
      decide (s.fault = none ∧ s.rtu.configured = true ∧ 1 ≤ s.rtu.bufferLen ∧ s.rtu.bufferLen ≤ s.cfg.bufferMax ∧
        s.rtu.buf.readRange 0 s.rtu.bufferLen = some readPdu ∧ m ≤ readPdu.length + 3 ∧
        s.rtu.st = (rtuSentAt s.cfg readPdu.length m).1 ∧ s.rtu.txIndex = (rtuSentAt s.cfg readPdu.length m).2 ∧
        s.rtu.txCrc = crc16 (s.rtu.frameAddress :: readPdu) ∧ s.inputs.rx ≠ [] ∧ s.inputs.rxError = true)) = true := by
  decide +kernel

/-- AsciiPollResumesTheAdu: every character at which it can stand, with an echo and an ERROR. -/
theorem witness_ascii_resume :
    ((List.range 18).all fun m =>
      let s := (ascSending m).hearing [0x3A] true
      decide (s.fault = none ∧ 1 ≤ s.asc.bufferLen ∧ s.asc.bufferLen ≤ s.cfg.bufferMax ∧
        s.asc.buf.readRange 0 s.asc.bufferLen = some readPdu ∧ m ≤ 2 * readPdu.length + 7 ∧
        s.asc.st = (ascSentAt readPdu.length m).1 ∧ s.asc.txIndex = (ascSentAt readPdu.length m).2 ∧
        s.asc.txLrc = lrcOf s.asc.frameAddress readPdu ∧ s.inputs.rx ≠ [] ∧ s.inputs.rxError = true)) = true := by
  decide +kernel

/-- The RTU framer in `receive` with `n` bytes held and `len` bytes in the buffer, `gap` ticks after its last byte. -/
def rtuMid (n : Fin 3) (len gap : Nat) : State :=
  let s := at_ gap [0x55] (rtuIn .receive (block none))
  { s with rtu := { s.rtu with holdN := n, bufferLen := len } }

/-- RtuByteRules: gaps of t15 and t15 + 1, of t35 - 1 and t35; lengths of CAP - 1 and CAP; every state; at the end of a
silence, a frame of two bytes and of four, a wrong residue and a right one, an address that passes and one that does not. -/
theorem witness_rtu_bytes :
    let gapOf (s : State) := tickDiff s.cfg s.now s.rtu.last
    ((block none).rtu.t15 = some 18 ∧ (block none).rtu.t35 = some 41 ∧ 0 < 18) ∧
    ((rtuMid 0 0 18).rtu.st = .receive ∧ gapOf (rtuMid 0 0 18) < 41 ∧ gapOf (rtuMid 0 0 18) ≤ 18 ∧
      (rtuMid 0 0 18).rtu.holdN = 0 ∧ (rtuMid 0 0 18).inputs.rx = [0x55] ∧ (rtuMid 0 0 18).inputs.rxError = false) ∧
    (18 < gapOf (rtuMid 0 0 19) ∧ gapOf (rtuMid 0 0 40) < 41 ∧ 18 < gapOf (rtuMid 0 0 40)) ∧
    (gapOf (rtuMid 1 0 18) ≤ 18 ∧ (rtuMid 1 0 18).rtu.holdN = 1) ∧
    ((rtuMid 2 251 18).rtu.holdN = 2 ∧ (rtuMid 2 251 18).rtu.bufferLen < cap (rtuMid 2 251 18).cfg) ∧
    ((rtuMid 2 252 18).rtu.holdN = 2 ∧ (rtuMid 2 252 18).rtu.bufferLen = cap (rtuMid 2 252 18).cfg) ∧
    ([RtuSt.idle, .frameReady, .queue, .dump, .collision, .txWait].all fun st =>
      decide ((at_ 40 [0x55] (rtuIn st (block none))).rtu.st = st ∧
        gapOf (at_ 40 [0x55] (rtuIn st (block none))) < 41)) = true ∧
    ([RtuSt.dump, .txWait, .collision, .receive].all fun st =>
      decide ((at_ 41 [0x55] (rtuIn st (block none))).rtu.st = st ∧
        41 ≤ gapOf (at_ 41 [0x55] (rtuIn st (block none))))) = true ∧
    ((block none).cfg.master ≠ some .rtu ∧ (3 : Nat) < 3 + (block none).cfg.minPdu ∧ 3 + (block none).cfg.minPdu ≤ 4) ∧
    ({ (block none).rtu with crc := 1 }.crc ≠ 0x0000#16 ∧ { (block none).rtu with crc := 0 }.crc = 0x0000#16) ∧
    (¬((2#8 : Byte) = 0#8 ∨ (1#8 : Byte) = 2#8 ∨ (1#8 : Byte) = 0#8) ∧ (block none).rtu.stationAddress = 0#8) := by
  decide +kernel

/-- RtuSilenceRules: silences of t35 and of t35 - 1, t15 and t15 - 1; RtuFrameEnd: a silence of t35. -/
theorem witness_silences :
    ([41, 40, 18, 17].map fun e => tickDiff (quiet .dump e).cfg (quiet .dump e).now (quiet .dump e).rtu.last) =
      [41, 40, 18, 17] ∧
    (quiet .dump 41).rtu.t15 = some 18 ∧ (quiet .dump 41).rtu.t35 = some 41 ∧ (quiet .dump 41).cfg.master ≠ some .rtu := by
  decide +kernel

/-- RtuFrameEnd: frames of two bytes and of four, a CRC residue of 0x0000 and another, an address that passes and one that
does not. -/
theorem witness_rtu_frame_end :
    let s (n : Nat) (crc : Word16) (station : Byte) : State :=
      { quiet .receive 41 with
        rtu := { (quiet .receive 41).rtu with rxCount := n, crc := crc, stationAddress := station, frameAddress := 1 } }
    ((s 3 0 0).rtu.rxCount < 3 + (s 3 0 0).cfg.minPdu ∧ 3 + (s 4 0 0).cfg.minPdu ≤ (s 4 0 0).rtu.rxCount) ∧
    ((s 4 1 0).rtu.crc ≠ 0x0000#16 ∧ (s 4 0 0).rtu.crc = 0x0000#16) ∧
    ¬((s 4 0 2).rtu.stationAddress = 0#8 ∨ (s 4 0 2).rtu.frameAddress = (s 4 0 2).rtu.stationAddress ∨
      (s 4 0 2).rtu.frameAddress = 0#8) ∧
    ((s 4 0 1).rtu.frameAddress = (s 4 0 1).rtu.stationAddress ∧ (s 4 0 1).rtu.st = .receive ∧
      (s 4 0 1).rtu.configured = true) := by decide +kernel

/-- MasterFrameReadyStep: a whole frame at its end on a bound framer of each kind, the engine waiting for its sender, for
another, and not at all; a PDU that decodes and one that does not. -/
theorem witness_frame_ready_step :
    let s := at_ 41 [] (rtuWhole (some .rtu))
    let t := at_ 1 [0x0A] { ascWhole with cfg := { ascWhole.cfg with master := some .ascii } }
    (s.fault = none ∧ s.cfg.master = some .rtu ∧ s.rtu.buf.readRange 0 s.rtu.bufferLen = some readPdu ∧ s.endsFrame .rtu) ∧
    (t.fault = none ∧ t.cfg.master = some .ascii ∧ t.asc.buf.readRange 0 t.asc.bufferLen = some readPdu ∧
      t.endsFrame .ascii) ∧
    (s.mst.st ≠ .waitingForReply ∧ s.rtu.bufferLen ≠ 0 ∧ (mstIn .waitingForReply 0 s).mst.st = .waitingForReply) ∧
    (t.mst.st ≠ .waitingForReply ∧ t.asc.bufferLen ≠ 0 ∧ t.asc.frameAddress = (mstIn .waitingForReply 0 t).mst.slave) ∧
    (s.rtu.frameAddress = (mstIn .waitingForReply 0 s).mst.slave ∧
      { mstIn .waitingForReply 0 s with mst := { s.mst with slave := 2 } }.mst.slave ≠ s.rtu.frameAddress) ∧
    (decodeReply s.mst readPdu = none ∧
      decodeReply s.mst [0x03, 0x02, 0x12, 0x34] = some (.responseRegisters 3 0 1 [0x1234])) := by
  refine ⟨⟨by decide +kernel, by decide +kernel, by decide +kernel, ?_⟩,
    ⟨by decide +kernel, by decide +kernel, by decide +kernel, ?_⟩, by decide +kernel, by decide +kernel, by decide +kernel,
    by decide +kernel⟩
  · exact ⟨by decide +kernel, by decide +kernel, by decide +kernel, by decide +kernel,
      ⟨41, by decide +kernel, by decide +kernel⟩, by decide +kernel, by decide +kernel, .inl (by decide +kernel)⟩
  · exact ⟨by decide +kernel, by decide +kernel, by decide +kernel, by decide +kernel, by decide +kernel, by decide +kernel,
      by decide +kernel, .inl (by decide +kernel)⟩

/-- MasterFrameReadyStep, its rules for a reply PDU: the malformed rows of V90 and of the rules' examples, for a write count
of 2. -/
theorem witness_malformed_replies :
    ([[0x03, 0x03, 0x12, 0x34, 0x56], [0x03, 0x04, 0x12, 0x34, 0x56], [0x03, 0x00], [0x01, 0x00], [0x01], [0x01, 0x02, 0x05],
      [0x05, 0x00, 0xAC, 0x00, 0x01], [0x05, 0x00, 0xAC, 0xFF], [0x06, 0x00, 0x05, 0x00], [0x10, 0x00, 0x01, 0x00, 0x03],
      [0x17, 0x01, 0x00], [0x83], [0x83, 0x02, 0x00], [0x2B, 0x0E, 0x01], [0x00], [0x7F]] : List (List Byte)).all
        (fun p => decide (decodeReply { Master.reset Config.default 0 with writeCount := 2 } p = none)) = true := by
  decide +kernel

/-- AsciiCharacterRules: an elapsed time of one tick less than the timeout, and of the timeout; every state; lengths of
CAP - 1 and CAP. -/
theorem witness_ascii_characters :
    ([AscSt.idle, .rxAddrHigh, .rxAddrLow, .rxPduHigh, .rxPduLow, .rxCr, .frameReady, .collision, .queue].all fun st =>
      let s := at_ 9999 [0x30] (ascIn st (block none))
      decide (s.fault = none ∧ s.inputs.rx = [0x30] ∧ s.inputs.rxError = false ∧
        tickDiff s.cfg s.now s.asc.last < s.asc.timeoutTicks ∧ s.asc.st = st)) = true ∧
    ([AscSt.rxAddrHigh, .rxAddrLow, .rxPduHigh, .rxPduLow, .rxCr, .collision].all fun st =>
      let s := at_ 10000 [0x3A] (ascIn st (block none))
      decide (s.asc.timeoutTicks ≤ tickDiff s.cfg s.now s.asc.last ∧ s.asc.st = st ∧ s.cfg.master ≠ some .ascii)) = true ∧
    (hexval 0x30 = some 0 ∧ hexval 0x66 = some 15 ∧ hexval 0x47 = none ∧ hexval 0x0D = none) ∧
    ((251 : Nat) < cap (block none).cfg ∧ 252 = cap (block none).cfg) := by decide +kernel

/-- AsciiFrameEnd: LF after a whole frame, with its parts changed; the timeout and one tick less. -/
theorem witness_ascii_frame_end :
    let s := at_ 1 [0x0A] ascWhole
    (s.fault = none ∧ s.cfg.master ≠ some .ascii ∧ s.asc.st = .rxCr ∧ s.inputs.rx = [0x0A#8] ∧ s.inputs.rxError = false ∧
      tickDiff s.cfg s.now s.asc.last < s.asc.timeoutTicks) ∧
    (s.asc.pendValid = true ∧ s.cfg.minPdu ≤ s.asc.bufferLen ∧ s.asc.lrc + s.asc.pend = 0#8 ∧ s.asc.stationAddress = 0#8) ∧
    (¬({ s.asc with pendValid := false }.pendValid = true) ∧ s.asc.lrc + { s.asc with pend := 0 }.pend ≠ 0#8 ∧
      s.asc.frameAddress = 1 ∧ ¬((2#8 : Byte) = 0#8 ∨ (1#8 : Byte) = 2#8 ∨ (1#8 : Byte) = 0#8)) ∧
    ((still .rxPduLow 10000).asc.timeoutTicks ≤
        tickDiff (still .rxPduLow 10000).cfg (still .rxPduLow 10000).now (still .rxPduLow 10000).asc.last ∧
      tickDiff (still .collision 9999).cfg (still .collision 9999).now (still .collision 9999).asc.last <
        (still .collision 9999).asc.timeoutTicks ∧ (still .rxPduLow 10000).asc.st.receiving = true) := by decide +kernel

/-- ReadErrors: an ERROR before the timers expire, in every state that does not transmit. PollReadsInOrder: the same
states. -/
theorem witness_read_errors :
    let s (st : RtuSt) (a : AscSt) : State :=
      { ascIn a (rtuIn st (block none)) with inputs := { Inputs.default with now := 40, rxError := true } }
    ([RtuSt.idle, .receive, .dump, .frameReady, .queue, .collision, .txWait].all fun st =>
      decide ((s st .idle).inputs.rx = [] ∧ (s st .idle).inputs.rxError = true ∧ (s st .idle).rtu.st = st ∧
        (s st .idle).rtu.t35 = some 41 ∧ tickDiff (s st .idle).cfg (s st .idle).now (s st .idle).rtu.last < 41)) = true ∧
    ([AscSt.idle, .frameReady, .queue, .collision, .rxCr].all fun a =>
      decide ((s .idle a).asc.st = a ∧
        tickDiff (s .idle a).cfg (s .idle a).now (s .idle a).asc.last < (s .idle a).asc.timeoutTicks)) = true ∧
    ([RtuSt.exception, .idle, .receive, .dump, .frameReady, .queue, .collision, .txWait].all fun st =>
      decide ((s st .idle).rtu.st.transmitting = false ∧ (s st .idle).rtu.t35 ≠ some 0)) = true ∧
    ([AscSt.exception, .idle, .frameReady, .queue, .collision, .rxAddrHigh, .rxCr].all fun a =>
      decide ((s .idle a).asc.st.transmitting = false ∧ (s .idle a).asc.timeoutTicks ≠ 0)) = true := by
  decide +kernel

/-- RtuAduIsReceived, AsciiAduIsReceived: PDUs shorter than MIN_PDU, of CAP bytes and longer; a right and a wrong check; an
address that passes and one that does not; no master engine, and one bound to each framer, for which the frame is
unsolicited, stale, malformed and a reply. -/
theorem witness_adus :
    let s : State := { block none with cfg := { Config.default with master := none, bufferMax := 4, minPdu := 2 } }
    (s.fault = none ∧ s.rtu.st = .idle ∧ s.rtu.configured = true ∧ s.rtu.t35 = some 41 ∧ 41 < 2 ^ s.cfg.tickWidth ∧
      s.asc.st = .idle ∧ s.cfg.master ≠ some .rtu ∧ s.cfg.master ≠ some .ascii) ∧
    ((block (some .rtu)).rtu.st = .idle ∧ (block (some .rtu)).cfg.master = some .rtu ∧
      (block (some .ascii)).asc.st = .idle ∧ (block (some .ascii)).cfg.master = some .ascii) ∧
    ((s.frameTaken 1 [0x83, 0x02] 41).1 = [.unsolicited] ∧
      ((mstIn .waitingForReply 0 s).frameTaken 2 [0x83, 0x02] 41).1 = [.stale] ∧
      ((mstIn .waitingForReply 0 s).frameTaken 1 [0x07] 41).1 = [.malformed] ∧
      ((mstIn .waitingForReply 0 s).frameTaken 1 [0x83, 0x02] 41).1 = [.masterException 3 2, .verdict true]) ∧
    (Instr.wf (.rtuAdu 1 [0x07] 0x41 0xE2) = true ∧ ([0x07] : List Byte).length < s.cfg.minPdu) ∧
    (([0x83, 0x02] : List Byte).length ≤ cap s.cfg ∧ s.cfg.minPdu ≤ ([0x83, 0x02] : List Byte).length ∧
      ([1, 2, 3, 4] : List Byte).length ≤ cap s.cfg ∧ cap s.cfg < ([1, 2, 3, 4, 5] : List Byte).length) ∧
    (crc16 (1 :: [0x83, 0x02]) = be16 0xF1 0xC0 ∧ crc16 (1 :: [0x83, 0x02]) ≠ be16 0xF1 0xC1) ∧
    ((0x7A : Byte) = lrcOf 1 [0x83, 0x02] ∧ (0x7B : Byte) ≠ lrcOf 1 [0x83, 0x02]) ∧
    ({ s.rtu with stationAddress := 1 }.stationAddress = 1 ∧ ¬((2#8 : Byte) = 0#8 ∨ (1#8 : Byte) = 2#8 ∨ (1#8 : Byte) = 0#8)) := by
  decide +kernel

/-- ReadRequestsAreSent, WriteRequestsAreSent, RequestPdusAreSent: each framer takes a request of each length; counts at
their limits. -/
theorem witness_requests :
    ((block (some .rtu)).takesRequest .rtu 5 ∧ (block (some .rtu)).takesRequest .rtu 252) ∧
    ((block (some .ascii)).takesRequest .ascii 5 ∧ (block (some .ascii)).takesRequest .ascii 252) ∧
    ((1 ≤ (2000#16).toNat ∧ (2000#16).toNat ≤ 2000) ∧ (1 ≤ (125#16).toNat ∧ (125#16).toNat ≤ 125) ∧
      6 + ((1968#16).toNat + 7) / 8 = 252 ∧ 6 + 2 * (123#16).toNat = 252 ∧ 10 + 2 * (121#16).toNat = 252) ∧
    ([.pduReqReadCoils 0 2000, .pduReqReadDiscreteInputs 0 1, .pduReqReadHoldingRegisters 0 125,
      .pduReqReadInputRegisters 0 1, .pduReqWriteSingleCoil 0 0xFF00, .pduReqWriteSingleRegister 0 0,
      .pduReqWriteMultipleCoils 0 1968 246 (List.replicate 246 0xFF),
      .pduReqWriteMultipleRegisters 0 123 246 (List.replicate 123 1),
      .pduReqReadWriteMultipleRegisters 0 125 0 121 242 (List.replicate 121 1)] : List Instr).all (fun i =>
        decide (portOf i = .request) && i.wf && countsInLimits i && decide ((encode i).length ≤ 252)) = true := by
  simp only [State.takesRequest, State.free]
  decide +kernel

/-- RequestsAreRefusedWithoutEffect: the engine busy; counts of 0 and past their limits; a PDU longer than CAP; the framer
busy; no SETUP. -/
theorem witness_request_refusals :
    let small : State := { block (some .rtu) with cfg := { Config.default with bufferMax := 4 } }
    ((mstIn .waitingForReply 0 (block (some .rtu))).mst.st ≠ .idle ∧ isRequest (.readCoils 1 0 1) = true) ∧
    ([.readCoils 1 0 0, .readCoils 1 0 2001, .readHoldingRegisters 1 0 126,
      .writeMultipleCoils 1 0 1969 (List.replicate 247 0), .writeMultipleRegisters 1 0 124 (List.replicate 124 0),
      .readWriteMultipleRegisters 1 0 126 0 1 [0], .readWriteMultipleRegisters 1 0 1 0 122 (List.replicate 122 0),
      .pduReqReadInputRegisters 0 126, .pduReqReadDiscreteInputs 0 0] : List Instr).all (fun i =>
        isRequest i && i.wf && !countsInLimits i) = true ∧
    (cap small.cfg < requestLength (.writeSingleRegister 1 0 0) ∧ small.mst.st = .idle) ∧
    ((rtuIn .receive (block (some .rtu))).configured .rtu = true ∧ (rtuIn .receive (block (some .rtu))).rtu.st = .receive) ∧
    (State.reset.rtu.configured = false ∧ State.reset.mst.st = .idle ∧ State.reset.cfg.master = some .rtu ∧
      requestLength (.readCoils 1 0 1) ≤ cap State.reset.cfg) := by decide +kernel

/-- RequestsAreRefusedWithoutEffect: a framer that receives is not free. -/
theorem witness_not_free : ¬(rtuIn .receive (block (some .rtu))).free .rtu ∧ ¬(ascIn .txWait (block (some .ascii))).free .ascii := by
  simp only [State.free]; decide

/-- RepliesAreDelivered: the engine waits for station 1, whose frames its framer receives; a reply of each kind, one with a
count that is not the request's among them; the shortest and the longest. -/
theorem witness_replies :
    let s (u : FramerKind) : State :=
      { mstIn .waitingForReply 0 (block (some u)) with inputs := { Inputs.default with address := 1 } }
    ((s .rtu).listens .rtu 1 ∧ (s .rtu).inputs.address = (s .rtu).mst.slave ∧ (s .rtu).mst.st = .waitingForReply) ∧
    ((s .ascii).listens .ascii 1 ∧ (s .ascii).inputs.address = (s .ascii).mst.slave) ∧
    ([.pduRspReadCoils 250 (List.replicate 250 1), .pduRspReadDiscreteInputs 1 [0], .pduRspReadHoldingRegisters 2 [0],
      .pduRspReadInputRegisters 250 (List.replicate 125 1), .pduRspWriteSingleCoil 0 0, .pduRspWriteSingleRegister 0 0,
      .pduRspWriteMultipleCoils 0 0, .pduRspWriteMultipleRegisters 0 1, .pduRspReadWriteMultipleRegisters 2 [0],
      .pduRspException 1 2, .pduRspOther 0x2B []] : List Instr).all (fun i =>
        decide (portOf i = .reply) && i.wf && decide (1 ≤ (encode i).length) && decide ((encode i).length ≤ 252)) = true ∧
    (expectedReply (s .rtu).mst (.pduRspWriteMultipleRegisters 0 1) = none ∧
      expectedReply (s .rtu).mst (.pduRspWriteMultipleCoils 0 0) = some (.responseCount 0x0F 0 0)) := by
  simp only [State.listens]
  decide +kernel

/-- MasterPollCommand: the elapsed time at each threshold and beside it. -/
theorem witness_master_poll :
    let e (now : Nat) (st : MstSt) : Nat :=
      tickDiff (at_ now [] (mstIn st 0 State.reset)).cfg (at_ now [] (mstIn st 0 State.reset)).now
        (at_ now [] (mstIn st 0 State.reset)).mst.stamp
    State.reset.mst.rtTicks < e 2001 .waitingForReply ∧ e 2000 .waitingForReply ≤ State.reset.mst.rtTicks ∧
    State.reset.mst.taTicks ≤ e 10000 .waitingTurnaroundReply ∧ e 9999 .waitingTurnaroundReply < State.reset.mst.taTicks ∧
    State.reset.cfg.master ≠ none := by decide +kernel

/-- MasterDeadlineIsExact: both waiting states, one tick before the threshold. -/
theorem witness_master_deadline :
    State.reset.mst.rtTicks < 2 ^ State.reset.cfg.tickWidth - 1 ∧ State.reset.mst.taTicks < 2 ^ State.reset.cfg.tickWidth ∧
    (after .mPoll (at_ 2000 [] (mstIn .waitingForReply 0 State.reset))).result = .ticks 1 ∧
    (after .mPoll (at_ 9999 [] (mstIn .waitingTurnaroundReply 0 State.reset))).result = .ticks 1 := by decide +kernel

/-- UnitsDoNotInterfere, EventsAndLinesOnlyGrow, UnrecoverableStatesDoNotHeal, HostOwnedBufferIsKept,
FramerWritesOnlyBelowCap: every instruction and every step answers a next state. -/
theorem witness_next_states : (∀ i s, ∃ t, exec i s = .next t) ∧ ∀ s, ∃ t, step s = .next t := ⟨exec_next, step_next⟩

/-- The same: a command of each port; `exception` left and entered, and `processing_error` left, by the commands named; a
host-owned buffer. -/
theorem witness_whole_machine :
    ([portOf .rtuPoll, portOf .ascPoll, portOf .mPoll, portOf (.pduReqReadCoils 0 1), portOf (.pduRspException 1 1),
      portOf (.rtuAdu 0 [0] 0 0), portOf (.asciiAdu 0 [0] 0)] = [.rtu, .asc, .mst, .request, .reply, .rtuLine, .ascLine]) ∧
    ((after .rtuReset (rtuIn .exception (block none))).rtu.st = .idle ∧
      (after (.rtuSetup 9600 0 0) (rtuIn .exception (block none))).rtu.st = .idle ∧
      (after (.rtuSetup 0 0 0) (block none)).rtu.st = .exception ∧ (after .ascReset clockless).asc.st = .exception ∧
      (after (.ascSetTimeout 1) clockless).asc.st = .exception ∧
      (after (.ascSetTimeout 1) (ascIn .exception (block none))).asc.st = .idle ∧
      (after .mAckError (mstIn .processingError 0 (block (some .rtu)))).mst.st = .idle ∧
      (after .mReset (mstIn .processingError 0 (block (some .rtu)))).mst.st = .idle) ∧
    ((rtuIn .frameReady (block none)).rtu.st ∈ [RtuSt.frameReady, .collision, .queue] ∧
      (block none).rtu.bufferLen ≤ cap (block none).cfg ∧ (block none).cfg.master ≠ some .rtu) := by decide +kernel

end Sys2Proof.Tests
end

section
/-! PROOFS. The scope of the block: tick arithmetic and the timing conversions (rules R12, R201 to R204, R209, R422), the
step (rules R7, R117, R646), and what an instruction for one unit leaves alone (rules R7, R10, R62, R401, R644). -/

namespace Sys2Proof.Machine

/-! ### Tick differences -/

/-- The difference leads from the earlier tick to the later one. -/
theorem add_tickDiff_modEq (c : Config) (a b : Nat) : b + tickDiff c a b ≡ a [MOD tickModulus c] := by
  have hb : b % tickModulus c < tickModulus c := Nat.mod_lt _ (tickModulus_pos c)
  have hd := Nat.mod_add_div b (tickModulus c)
  calc b + tickDiff c a b
      ≡ b + (a % tickModulus c + (tickModulus c - b % tickModulus c)) [MOD tickModulus c] :=
        Nat.ModEq.add_left _ (Nat.mod_modEq _ _)
    _ = a % tickModulus c + tickModulus c * (b / tickModulus c + 1) := by rw [Nat.mul_add_one]; omega
    _ ≡ a % tickModulus c [MOD tickModulus c] := by simp [Nat.ModEq]
    _ ≡ a [MOD tickModulus c] := Nat.mod_modEq _ _

/-- The elapsed time, where it is a tick. -/
theorem tickDiff_add_left {c : Config} {d : Nat} (b : Nat) (hd : d < tickModulus c) : tickDiff c (b + d) b = d :=
  (Nat.ModEq.add_left_cancel' b (add_tickDiff_modEq c (b + d) b)).eq_of_lt_of_lt (tickDiff_lt_modulus c _ _) hd

/-- Settles O20: the difference is a tick congruent to the elapsed time, so it is the elapsed time where that is a tick. -/
theorem tickDifference : Obligations.TickDifference := fun c a b =>
  ⟨tickDiff_lt_modulus c a b, add_tickDiff_modEq c a b, fun _ hd => tickDiff_add_left b hd⟩

/-! ### Timing conversions -/

/-- `ceil_div(a, b)` is the least `q` with `a ≤ q * b`. -/
theorem ceilDiv_le_iff {b : Nat} (hb : 1 ≤ b) (a q : Nat) : ceilDiv a b ≤ q ↔ a ≤ q * b := by
  rw [ceilDiv, Nat.div_le_iff_le_mul_add_pred hb, Nat.mul_comm q b]
  omega

theorem le_ceilDiv_mul {b : Nat} (hb : 1 ≤ b) (a : Nat) : a ≤ ceilDiv a b * b := (ceilDiv_le_iff hb a _).1 le_rfl

/-- A window of `least * rate` bit times (scaled) has passed `least` exactly below the baud rate `rate`, so taking `least`
from there on is a floor (rule R202). -/
theorem fixedWindow_eq_max (least rate : Nat) {baud : Nat} (hb : 1 ≤ baud) :
    (if rate ≤ baud then least else ceilDiv (least * rate) baud) = max least (ceilDiv (least * rate) baud) := by
  split
  case isTrue h => exact (max_eq_left ((ceilDiv_le_iff hb _ _).2 (Nat.mul_le_mul_left least h))).symm
  case isFalse h =>
    have hfloor : least ≤ ceilDiv (least * rate) baud := by
      by_contra hlt
      have : ceilDiv (least * rate) baud * baud < least * rate := Nat.mul_lt_mul'' (by omega) (by omega)
      exact absurd (le_ceilDiv_mul hb (least * rate)) (by omega)
    exact (max_eq_right hfloor).symm

theorem t15Us_eq_max {c : Config} {baud : Nat} (hc : c.fixedTimingBaud = 22000) (hb : 1 ≤ baud) :
    t15Us c baud 0 = max 750 (ceilDiv 16500000 baud) := by
  simpa [t15Us, hc] using fixedWindow_eq_max 750 22000 hb

theorem t35Us_eq_max {c : Config} {baud : Nat} (hc : c.fixedTimingBaud = 22000) (hb : 1 ≤ baud) :
    t35Us c baud 0 = max 1750 (ceilDiv 38500000 baud) := by
  simpa [t35Us, hc] using fixedWindow_eq_max 1750 22000 hb

/-- A tick count of at least `ceil_div(us, UPT)` covers `us` microseconds, unless saturation cuts it. -/
theorem satTicks_covers {c : Config} {us v : Nat} (hu : c.usPerTick ≠ 0) (h : ceilDiv us c.usPerTick ≤ v) :
    satTicks c v = tickModulus c - 1 ∨ us ≤ satTicks c v * c.usPerTick := by
  obtain hs | hs : satTicks c v = v ∨ satTicks c v = tickModulus c - 1 := min_choice ..
  · exact .inr (by rw [hs]; exact (ceilDiv_le_iff (by omega) us v).1 h)
  · exact .inl hs

theorem msToTicks_covers {c : Config} (hu : c.usPerTick ≠ 0) (ms : Nat) :
    msToTicks c ms = tickModulus c - 1 ∨ ms * 1000 ≤ msToTicks c ms * c.usPerTick := by
  rw [msToTicks, if_neg hu]
  exact satTicks_covers hu le_rfl

/-- Settles O21: rounding up is the least covering quotient, and every conversion is a saturated rounding up. -/
theorem timingConversions : Obligations.TimingConversions := by
  refine ⟨fun a b hb => ⟨le_ceilDiv_mul hb a, fun q => (ceilDiv_le_iff hb a q).2⟩,
    fun c baud hc hb => ⟨t15Us_eq_max hc hb, t35Us_eq_max hc hb⟩,
    fun c baud us hus => ⟨if_pos hus, if_pos hus⟩, fun c us hc hu => ?_, fun c ms hu => msToTicks_covers hu ms⟩
  obtain ⟨hw, -⟩ := (Config.wf_iff c).1 hc
  exact ⟨two_le_satTicks hw _, satTicks_lt c _, satTicks_covers hu (le_max_right ..)⟩

/-! ### The step -/

/-- With no message issued a step does nothing (rule R646). -/
theorem step_of_no_message {s : State} (h : s.pending = []) : step s = .next s := by rw [step, h]

/-- The step of a message that decodes (rules R7, R117). -/
theorem step_of_decode {s : State} {r : Request} {rest : List Request} {i : Instr} (h : s.pending = r :: rest)
    (hd : decode r.port r.message = some i) : step s = exec i (s.begin r rest) := by simp only [step, h, hd]

/-- Settles O5: the two branches of the step. -/
theorem stepRunsTheNextMessage : Obligations.StepRunsTheNextMessage :=
  ⟨fun _ _ _ _ => step_of_decode, fun _ => step_of_no_message⟩

/-! ### What an instruction touches -/

/-- Framer `u` may do the work of a message at port `p`: a framer's port and its line belong to that framer; the master
engine works through the framer it is bound to, and without a master engine no framer does anything, so either may stand. -/
def Port.servedBy (c : Config) (u : FramerKind) : Port → Prop
  | .rtu | .rtuLine => u = .rtu
  | .asc | .ascLine => u = .ascii
  | .mst | .request | .reply => c.master = none ∨ c.master = some u

/-- Every port is served by some framer. -/
theorem exists_servedBy (c : Config) (p : Port) : ∃ u, Port.servedBy c u p := by
  have engine : ∃ u, c.master = none ∨ c.master = some u := by
    cases c.master with
    | none => exact ⟨.rtu, .inl rfl⟩
    | some u => exact ⟨u, .inr rfl⟩
  cases p with
  | rtu | rtuLine => exact ⟨.rtu, rfl⟩
  | asc | ascLine => exact ⟨.ascii, rfl⟩
  | mst | request | reply => exact engine

/-- The next state, where there is one, comes from `s` by work of framer `u`. -/
structure NextTouches (u : FramerKind) (s : State) (o : Host.Outcome State Fault Refusal) : Prop where
  touches : ∀ t, o = .next t → Touches u s t

/-- A command touches what its body touches, from the state with the result cleared. -/
theorem nextTouches_command {u : FramerKind} {s : State} {f : State → State}
    (h : Touches u (s.answer .none) (f (s.answer .none))) : NextTouches u s (.next (s.command f)) := by
  constructor
  rintro _ ⟨⟩
  exact (Touches.refl u s).andThen ((touches_answer u .none s).trans h)

/-- The same for a master command, whose body runs only where there is a master engine. -/
theorem nextTouches_masterCommand {u : FramerKind} {s : State} {f : State → State}
    (hm : s.cfg.master = none ∨ s.cfg.master = some u)
    (h : (s.answer .none).cfg.master = some u → Touches u (s.answer .none) (f (s.answer .none))) :
    NextTouches u s (.next (s.masterCommand f)) := by
  refine nextTouches_command (.ite (fun hs => h (hm.resolve_left fun hn => ?_)) fun _ => touches_raise ..)
  simp [hn] at hs

/-- M_POLL's body (rule R470) touches the engine and the events only. -/
theorem touches_masterPoll {u : FramerKind} {s : State} (env : Inputs) (hb : s.cfg.master = some u) :
    Touches u s (masterPoll env s) := by
  simp only [masterPoll]
  split
  · exact .ite (fun _ => (((touches_emit u .timeout s).trans (touches_emit ..)).trans (touches_mst _ _ hb)).trans
      (touches_answerTicks ..)) fun _ => touches_answerTicks ..
  · exact .ite (fun _ => ((touches_emit u .turnaroundDone s).trans (touches_mst _ _ hb)).trans
      (touches_answerTicks ..)) fun _ => touches_answerTicks ..
  all_goals exact touches_answerTicks ..

section EngineCommands

variable {u : FramerKind} {s : State} (hm : s.cfg.master = none ∨ s.cfg.master = some u)
include hm

/-- A request through the bound framer, or BAD_COMMAND where there is no master engine (rule R631). -/
theorem touches_boundRequest (env : Inputs) (slave : Byte) (p : RequestPlan) :
    Touches u s (masterRequest env slave p s) := by
  obtain hn | hb := hm
  · rw [masterRequest, hn]; exact touches_raise ..
  · exact touches_masterRequest env slave p hb

theorem nextTouches_requestCommand (slave : Byte) (p : RequestPlan) : NextTouches u s (requestCommand slave p s) :=
  nextTouches_command (touches_boundRequest (s := s.answer .none) hm ..)

theorem nextTouches_checkedRequest (ok : Bool) (slave : Byte) (p : RequestPlan) :
    NextTouches u s (checkedRequest ok slave p s) :=
  nextTouches_command (.ite (fun _ => touches_boundRequest (s := s.answer .none) hm ..) fun _ => touches_raise ..)

theorem nextTouches_replyCommand (p : List Byte) : NextTouches u s (replyCommand p s) := by
  refine nextTouches_command ?_
  obtain hn | hb := hm
  · rw [replyArrives, State.answer_cfg, hn]; exact touches_raise ..
  · exact touches_replyArrives _ p hb

theorem nextTouches_execMReset : NextTouches u s (execMReset s) :=
  nextTouches_masterCommand hm fun hb => touches_mst _ _ hb

theorem nextTouches_execMSetResponseTimeout (ms : Word32) : NextTouches u s (execMSetResponseTimeout ms s) :=
  nextTouches_masterCommand hm fun hb => touches_mst _ _ hb

theorem nextTouches_execMSetTurnaround (ms : Word32) : NextTouches u s (execMSetTurnaround ms s) :=
  nextTouches_masterCommand hm fun hb => touches_mst _ _ hb

theorem nextTouches_execMPoll : NextTouches u s (execMPoll s) :=
  nextTouches_masterCommand hm fun hb => touches_masterPoll _ hb

theorem nextTouches_execMAckError : NextTouches u s (execMAckError s) :=
  nextTouches_masterCommand hm fun hb =>
    .ite (fun _ => ((touches_mst _ _ hb).trans (touches_emit ..)).trans (touches_answer ..)) fun _ => touches_answer ..

theorem nextTouches_execMReadStatus : NextTouches u s (execMReadStatus s) :=
  nextTouches_masterCommand hm fun _ => touches_answer ..

end EngineCommands

section FramerCommands

variable (s : State)

theorem nextTouches_execRtuReset : NextTouches .rtu s (execRtuReset s) := nextTouches_command (touches_rtu ..)

theorem nextTouches_execAscReset : NextTouches .ascii s (execAscReset s) :=
  nextTouches_command (.ite (fun _ => (touches_asc ..).trans (touches_emitCause ..)) fun _ => touches_asc ..)

theorem nextTouches_execRtuSetup (baud ifdUs icdUs : Word32) : NextTouches .rtu s (execRtuSetup baud ifdUs icdUs s) :=
  nextTouches_command (.ite (fun _ => ((touches_rtu ..).trans (touches_emitCause ..)).trans (touches_answer ..)) fun _ =>
    (touches_rtu ..).trans (touches_answer ..))

theorem nextTouches_execAscSetTimeout (ms : Word32) : NextTouches .ascii s (execAscSetTimeout ms s) :=
  nextTouches_command (.ite (fun _ => ((touches_asc ..).trans (touches_emitCause ..)).trans (touches_answer ..)) fun _ =>
    (touches_asc ..).trans (touches_answer ..))

theorem nextTouches_execRtuSetStationAddress (addr : Byte) : NextTouches .rtu s (execRtuSetStationAddress addr s) :=
  nextTouches_command (touches_rtu ..)

theorem nextTouches_execAscSetStationAddress (addr : Byte) : NextTouches .ascii s (execAscSetStationAddress addr s) :=
  nextTouches_command (touches_asc ..)

theorem nextTouches_execRtuPoll : NextTouches .rtu s (execRtuPoll s) := nextTouches_command (touches_rtuPoll ..)

theorem nextTouches_execAscPoll : NextTouches .ascii s (execAscPoll s) := nextTouches_command (touches_ascPoll ..)

theorem nextTouches_execRtuBeginSend : NextTouches .rtu s (execRtuBeginSend s) :=
  nextTouches_command (.ite (fun _ => .ite (fun _ => (touches_enterQueue ..).trans (touches_answer ..)) fun _ =>
    touches_answer ..) fun _ => touches_raise ..)

theorem nextTouches_execAscBeginSend : NextTouches .ascii s (execAscBeginSend s) :=
  nextTouches_command (.ite (fun _ => (touches_enterQueue ..).trans (touches_answer ..)) fun _ => touches_answer ..)

theorem nextTouches_execRtuSend : NextTouches .rtu s (execRtuSend s) :=
  nextTouches_command (.ite (fun _ => .ite (fun _ => (touches_framerTransmit ..).andThen (touches_answer ..)) fun _ =>
    touches_answer ..) fun _ => touches_raise ..)

theorem nextTouches_execAscSend : NextTouches .ascii s (execAscSend s) :=
  nextTouches_command (.ite (fun _ => (touches_framerTransmit ..).andThen (touches_answer ..)) fun _ =>
    touches_answer ..)

theorem nextTouches_execRtuFinished : NextTouches .rtu s (execRtuFinished s) := nextTouches_command (touches_rtuFinished _)

theorem nextTouches_execAscFinished : NextTouches .ascii s (execAscFinished s) :=
  nextTouches_command (touches_ascFinished _)

theorem nextTouches_execRtuAdu (address : Byte) (pdu : List Byte) (crcLo crcHi : Byte) :
    NextTouches .rtu s (execRtuAdu address pdu crcLo crcHi s) := nextTouches_command (touches_rtuLineFrame ..)

theorem nextTouches_execAsciiAdu (address : Byte) (pdu : List Byte) (lrc : Byte) :
    NextTouches .ascii s (execAsciiAdu address pdu lrc s) := nextTouches_command (touches_ascLineFrame ..)

variable (u : FramerKind)

/-- The host's access checks, before an access that touches the framer only (rules R106, R107). -/
theorem touches_hostAccess {s : State} {access : State → State} (h : Touches u s (access s)) :
    Touches u s (hostAccess u access s) :=
  .ite (fun _ => touches_raise ..) fun _ => .ite (fun _ => touches_raise ..) fun _ => h

theorem nextTouches_execBufRead (k : Word16) : NextTouches u s (execBufRead u k s) := by
  refine nextTouches_command (touches_hostAccess u ?_)
  split
  · exact touches_answer ..
  · exact touches_raise ..

theorem nextTouches_execBufWrite (k : Word16) (v : Byte) : NextTouches u s (execBufWrite u k v s) :=
  nextTouches_command (touches_hostAccess u (touches_bufWrite ..))

theorem nextTouches_execSetFrame (addr : Byte) (n : Word16) : NextTouches u s (execSetFrame u addr n s) :=
  nextTouches_command (.ite (fun _ => touches_raise ..) fun _ => .ite (fun _ => touches_raise ..) fun _ =>
    .ite (fun _ => touches_raise ..) fun _ => touches_setFrameFields ..)

theorem nextTouches_execReadStatus : NextTouches u s (execReadStatus u s) := nextTouches_command (touches_answer ..)

end FramerCommands

/-- A framer that is known to be `v` touches what `v` touches. -/
theorem NextTouches.of_eq {u v : FramerKind} {s : State} {o : Host.Outcome State Fault Refusal} (huv : u = v)
    (h : NextTouches v s o) : NextTouches u s o := huv ▸ h

/-- The commands that name a framer are served by it and by no other (rule R171). -/
theorem eq_of_servedBy_framerPort {c : Config} {u v : FramerKind} (h : Port.servedBy c u (framerPort v)) : u = v := by
  cases v <;> exact h

/-- Every instruction touches only a framer that serves its port, that framer's line, and the master engine if it is bound to
that framer. -/
theorem nextTouches_exec {u : FramerKind} {s : State} : ∀ i : Instr, Port.servedBy s.cfg u (portOf i) →
    NextTouches u s (exec i s)
  | .rtuReset, h => .of_eq h (nextTouches_execRtuReset s)
  | .rtuSetup .., h => .of_eq h (nextTouches_execRtuSetup ..)
  | .rtuSetStationAddress _, h => .of_eq h (nextTouches_execRtuSetStationAddress ..)
  | .rtuPoll, h => .of_eq h (nextTouches_execRtuPoll s)
  | .rtuBeginSend, h => .of_eq h (nextTouches_execRtuBeginSend s)
  | .rtuSend, h => .of_eq h (nextTouches_execRtuSend s)
  | .rtuFinished, h => .of_eq h (nextTouches_execRtuFinished s)
  | .rtuAdu .., h => .of_eq h (nextTouches_execRtuAdu ..)
  | .ascReset, h => .of_eq h (nextTouches_execAscReset s)
  | .ascSetTimeout _, h => .of_eq h (nextTouches_execAscSetTimeout ..)
  | .ascSetStationAddress _, h => .of_eq h (nextTouches_execAscSetStationAddress ..)
  | .ascPoll, h => .of_eq h (nextTouches_execAscPoll s)
  | .ascBeginSend, h => .of_eq h (nextTouches_execAscBeginSend s)
  | .ascSend, h => .of_eq h (nextTouches_execAscSend s)
  | .ascFinished, h => .of_eq h (nextTouches_execAscFinished s)
  | .asciiAdu .., h => .of_eq h (nextTouches_execAsciiAdu ..)
  | .bufRead .., h => .of_eq (eq_of_servedBy_framerPort h) (nextTouches_execBufRead ..)
  | .bufWrite .., h => .of_eq (eq_of_servedBy_framerPort h) (nextTouches_execBufWrite ..)
  | .setFrame .., h => .of_eq (eq_of_servedBy_framerPort h) (nextTouches_execSetFrame ..)
  | .readStatus _, h => .of_eq (eq_of_servedBy_framerPort h) (nextTouches_execReadStatus ..)
  | .mReset, h => nextTouches_execMReset h
  | .mSetResponseTimeout _, h => nextTouches_execMSetResponseTimeout h _
  | .mSetTurnaround _, h => nextTouches_execMSetTurnaround h _
  | .mPoll, h => nextTouches_execMPoll h
  | .mAckError, h => nextTouches_execMAckError h
  | .mReadStatus, h => nextTouches_execMReadStatus h
  | .readCoils .., h | .readDiscreteInputs .., h | .readHoldingRegisters .., h | .readInputRegisters .., h
  | .writeSingleRegister .., h | .pduReqReadCoils .., h | .pduReqReadDiscreteInputs .., h
  | .pduReqReadHoldingRegisters .., h | .pduReqReadInputRegisters .., h | .pduReqWriteSingleRegister .., h =>
      nextTouches_requestCommand h ..
  | .writeSingleCoil .., h | .writeMultipleCoils .., h | .writeMultipleRegisters .., h
  | .readWriteMultipleRegisters .., h | .pduReqWriteSingleCoil .., h | .pduReqWriteMultipleCoils .., h
  | .pduReqWriteMultipleRegisters .., h | .pduReqReadWriteMultipleRegisters .., h => nextTouches_checkedRequest h ..
  | .pduRspReadCoils .., h | .pduRspReadDiscreteInputs .., h | .pduRspReadHoldingRegisters .., h
  | .pduRspReadInputRegisters .., h | .pduRspWriteSingleCoil .., h | .pduRspWriteSingleRegister .., h
  | .pduRspWriteMultipleCoils .., h | .pduRspWriteMultipleRegisters .., h
  | .pduRspReadWriteMultipleRegisters .., h | .pduRspException .., h | .pduRspOther .., h => nextTouches_replyCommand h _

/-- There are two framers. -/
theorem eq_of_ne_of_ne : ∀ {u v w : FramerKind}, u ≠ v → w ≠ u → w = v
  | .rtu, .ascii, .ascii, _, _ | .ascii, .rtu, .rtu, _, _ => rfl
  | .rtu, .rtu, _, huv, _ | .ascii, .ascii, _, huv, _ => absurd rfl huv
  | .rtu, .ascii, .rtu, _, hw | .ascii, .rtu, .ascii, _, hw => absurd rfl hw

/-- At a port of the master engine, the framer that it is not bound to leaves the work to the other one. -/
theorem servedBy_of_not_bound {c : Config} {u v : FramerKind} {p : Port} (huv : u ≠ v)
    (hp : p = .mst ∨ p = .request ∨ p = .reply) (hm : c.master ≠ some u) : Port.servedBy c v p := by
  have bound : c.master = none ∨ c.master = some v := by
    cases hc : c.master with
    | none => exact .inl rfl
    | some w => exact .inr (congrArg some (eq_of_ne_of_ne huv fun hw => hm (hw ▸ hc)))
  obtain rfl | rfl | rfl := hp <;> exact bound

/-- Settles O56: each clause is a field of `Touches` for a framer that serves the instruction's port. -/
theorem unitsDoNotInterfere : Obligations.UnitsDoNotInterfere := by
  intro i s t e
  have touches {u : FramerKind} (h : Port.servedBy s.cfg u (portOf i)) : Touches u s t := (nextTouches_exec i h).touches t e
  obtain ⟨u, hu⟩ := exists_servedBy s.cfg (portOf i)
  refine ⟨(touches hu).cfg, (touches hu).inputs, (touches hu).pending, fun hp => ?_, fun hp => ?_,
    fun hp => ⟨fun hm => ?_, fun hm => ?_⟩⟩
  · have h : Touches .rtu s t := touches (by obtain hp | hp := hp <;> rw [hp] <;> rfl)
    exact ⟨(h.asc (by decide)).1, (h.asc (by decide)).2, h.mst⟩
  · have h : Touches .ascii s t := touches (by obtain hp | hp := hp <;> rw [hp] <;> rfl)
    exact ⟨(h.rtu (by decide)).1, (h.rtu (by decide)).2, h.mst⟩
  · exact (touches (servedBy_of_not_bound (v := .ascii) (by decide) hp hm)).rtu (by decide)
  · exact (touches (servedBy_of_not_bound (v := .rtu) (by decide) hp hm)).asc (by decide)

end Sys2Proof.Machine
end

section
/-! PROOFS. What a step touches (rules R7, R117), and so what it never takes back (rules R65, R122, R620). -/

namespace Sys2Proof.Machine

/-- A message that its port's decoder refuses touches no more than an instruction at that port: at a command port it faults,
and on a line it is what the framer reads. -/
theorem nextTouches_undecoded {u : FramerKind} {s : State} (m : List Byte) :
    ∀ p : Port, Port.servedBy s.cfg u p → NextTouches u s (.next (undecoded p m s))
  | .rtu, _ | .asc, _ | .mst, _ | .request, _ => nextTouches_command (touches_raise ..)
  | .reply, h => nextTouches_replyCommand h m
  | .rtuLine, h => .of_eq h (nextTouches_command (touches_rtuLineFrame ..))
  | .ascLine, h => .of_eq h (nextTouches_command (touches_ascLineFrame ..))

/-- The step of a message that does not decode (rules R171, R631). -/
theorem step_of_decode_eq_none {s : State} {r : Request} {rest : List Request} (h : s.pending = r :: rest)
    (hd : decode r.port r.message = none) : step s = .next (undecoded r.port r.message (s.begin r rest)) := by
  simp only [step, h, hd]

/-- The step of a message, decoded or not, is one framer's work on the state that has taken the message up. -/
theorem exists_nextTouches_step {s : State} {r : Request} {rest : List Request} (h : s.pending = r :: rest) :
    ∃ u, NextTouches u (s.begin r rest) (step s) := by
  cases hd : decode r.port r.message with
  | none =>
    obtain ⟨u, hu⟩ := exists_servedBy (s.begin r rest).cfg r.port
    exact ⟨u, step_of_decode_eq_none h hd ▸ nextTouches_undecoded r.message r.port hu⟩
  | some i =>
    obtain ⟨u, hu⟩ := exists_servedBy (s.begin r rest).cfg (portOf i)
    exact ⟨u, step_of_decode h hd ▸ nextTouches_exec i hu⟩

/-- What a step can do: nothing where no message is issued, or one framer's work on the next message. -/
theorem step_cases {s t : State} (e : step s = .next t) :
    (s.pending = [] ∧ t = s) ∨ ∃ u r rest, s.pending = r :: rest ∧ Touches u (s.begin r rest) t := by
  cases h : s.pending with
  | nil =>
    rw [step_of_no_message h] at e
    cases e
    exact .inl ⟨rfl, rfl⟩
  | cons r rest =>
    obtain ⟨u, hu⟩ := exists_nextTouches_step h
    exact .inr ⟨u, r, rest, rfl, hu.touches t e⟩

/-- Settles O57: taking up a message changes neither the events nor a line, and a framer's work only extends them. -/
theorem eventsAndLinesOnlyGrow : Obligations.EventsAndLinesOnlyGrow := by
  intro s t e
  obtain ⟨-, rfl⟩ | ⟨u, r, rest, -, h⟩ := step_cases e
  · exact ⟨List.prefix_rfl, List.prefix_rfl, List.prefix_rfl⟩
  · exact ⟨h.events, h.rtuLine, h.ascLine⟩

end Sys2Proof.Machine
end

section
/-! PROOFS. The frame buffer as the host uses it (rules R100, R103, R106 to R108): what a memory reads back, and the three
commands that go to either framer's buffer. -/

namespace Sys2Proof.Machine

/-! ### Reading back a list of bytes -/

/-- Each byte of a list written from index `i` reads back. -/
theorem Memory.read_writeList : ∀ (vs : List Byte) (m : Memory) (i : Nat) {k : Nat}, k < vs.length →
    (m.writeList i vs).read (i + k) = vs[k]?
  | v :: vs, m, i, 0, _ => by
    simp [Memory.writeList, Memory.read_writeList_below vs (m.write i v) (Nat.lt_succ_self i)]
  | v :: vs, m, i, k + 1, hk => by
    rw [Memory.writeList, Nat.add_comm k, ← Nat.add_assoc,
      Memory.read_writeList vs (m.write i v) (i + 1) (Nat.lt_of_succ_lt_succ hk), Nat.add_comm 1, List.getElem?_cons_succ]

/-- A list written from index `i` reads back whole. -/
theorem Memory.readRange_writeList : ∀ (vs : List Byte) (m : Memory) (i : Nat),
    (m.writeList i vs).readRange i vs.length = some vs
  | [], _, _ => rfl
  | v :: vs, m, i => (Memory.readRange_succ ..).2 ⟨v, vs, rfl,
      Memory.read_writeList (v :: vs) m i (Nat.succ_pos _), Memory.readRange_writeList vs (m.write i v) (i + 1)⟩

/-- Settles O14: the laws of one write, and of the list of writes that a PDU from index 0 is. -/
theorem bufferReadsWhatWasWritten : Obligations.BufferReadsWhatWasWritten := by
  refine ⟨fun m i j v => ?_, fun m p j => ?_, fun m p => Memory.readRange_writeList p m 0, Memory.wf_write⟩
  · split
    next h => rw [h, Memory.read_write_same]
    next h => exact Memory.read_write_other m v h
  · split
    next h => simpa using Memory.read_writeList p m 0 h
    next h => exact Memory.read_writeList_beyond p m (by omega)

/-! ### What a host's access can find -/

/-- The host owns the RTU framer's buffer in three states (rule R103). -/
theorem RtuSt.owner_eq_host (st : RtuSt) : st.owner = .host ↔ st = .frameReady ∨ st = .collision ∨ st = .queue := by
  cases st <;> decide

/-- The host owns the ASCII framer's buffer in three states (rule R103). -/
theorem AscSt.owner_eq_host (st : AscSt) : st.owner = .host ↔ st = .frameReady ∨ st = .collision ∨ st = .queue := by
  cases st <;> decide

/-- Only an RTU framer can lack a configuration (rules R37, R301). -/
theorem State.configured_eq_false (s : State) (u : FramerKind) :
    s.configured u = false ↔ u = .rtu ∧ s.rtu.configured = false := by
  cases u <;> simp [State.configured]

theorem bufRead_of_bufferMax_le {s : State} (u : FramerKind) {i : Nat} (hi : s.cfg.bufferMax ≤ i) :
    s.bufRead u i = .error .bufIndex := if_neg (Nat.not_lt.2 hi)

theorem bufRead_of_unwritten {s : State} {u : FramerKind} {i : Nat} (hi : i < s.cfg.bufferMax)
    (hr : (s.buf u).read i = none) : s.bufRead u i = .error .unwritten := by rw [State.bufRead, if_pos hi, hr]

theorem bufRead_of_written {s : State} {u : FramerKind} {i : Nat} {v : Byte} (hi : i < s.cfg.bufferMax)
    (hr : (s.buf u).read i = some v) : s.bufRead u i = .ok v := by rw [State.bufRead, if_pos hi, hr]

section HostAccess

variable {u : FramerKind} {s : State} (access : State → State) (hf : s.fault = none)
include hf

/-- The first check of a command that accesses a buffer (rules R106, R107). -/
theorem command_hostAccess_of_not_configured (hc : s.configured u = false) :
    s.command (hostAccess u access) = (s.answer .none).raise .notConfigured :=
  (State.command_of_ok _ hf).trans (if_pos hc)

/-- Its second check. -/
theorem command_hostAccess_of_not_owner (hc : ¬s.configured u = false) (ho : s.owner u ≠ .host) :
    s.command (hostAccess u access) = (s.answer .none).raise .ownership :=
  (State.command_of_ok _ hf).trans ((if_neg hc).trans (if_pos ho))

/-- It passes both. -/
theorem command_hostAccess_of_owner (hc : ¬s.configured u = false) (ho : s.owner u = .host) :
    s.command (hostAccess u access) = access (s.answer .none) :=
  (State.command_of_ok _ hf).trans ((if_neg hc).trans (if_neg (not_not.2 ho)))

end HostAccess

section BufRead

variable {u : FramerKind} {s : State} {i : Word16} (hf : s.fault = none) (hc : ¬s.configured u = false)
  (ho : s.owner u = .host)
include hf hc ho

/-- BUF_READ by the owner returns the byte that `BufRead` reads. -/
theorem exec_bufRead_of_ok {v : Byte} (hr : s.bufRead u i.toNat = .ok v) :
    exec (.bufRead u i) s = .next (s.answer (.byte v)) := by
  refine congrArg Host.Outcome.next ((command_hostAccess_of_owner _ hf hc ho).trans ?_)
  rw [show (s.answer .none).bufRead u i.toNat = .ok v from hr]
  rfl

/-- BUF_READ by the owner raises the fault that `BufRead` meets. -/
theorem exec_bufRead_of_error {f : Fault} (hr : s.bufRead u i.toNat = .error f) :
    exec (.bufRead u i) s = .next ((s.answer .none).raise f) := by
  refine congrArg Host.Outcome.next ((command_hostAccess_of_owner _ hf hc ho).trans ?_)
  rw [show (s.answer .none).bufRead u i.toNat = .error f from hr]

end BufRead

/-! ### The three commands -/

/-- Settles O25: the checks of an access in their order, then the three cases of `BufRead`. -/
theorem bufReadCommand : Obligations.BufReadCommand := by
  intro u i s hf hostOwns fails
  have hown : s.owner u = .host ↔ hostOwns := by
    cases u
    · exact RtuSt.owner_eq_host _
    · exact AscSt.owner_eq_host _
  simp only [← State.configured_eq_false, ← hown]
  exact ⟨fun hc => congrArg _ (command_hostAccess_of_not_configured _ hf hc),
    fun hc ho => congrArg _ (command_hostAccess_of_not_owner _ hf hc ho),
    fun hc ho hi => exec_bufRead_of_error hf hc ho (bufRead_of_bufferMax_le u hi),
    fun hc ho hi hr => exec_bufRead_of_error hf hc ho (bufRead_of_unwritten hi hr),
    fun _ hc ho hi hr => exec_bufRead_of_ok hf hc ho (bufRead_of_written hi hr)⟩

/-- Settles O26: the checks of an access in their order, then the two cases of `BufWrite`. -/
theorem bufWriteCommand : Obligations.BufWriteCommand := by
  intro u i v s hf hostOwns fails
  have hown : s.owner u = .host ↔ hostOwns := by
    cases u
    · exact RtuSt.owner_eq_host _
    · exact AscSt.owner_eq_host _
  simp only [← State.configured_eq_false, ← hown]
  have hpass (hc : ¬s.configured u = false) (ho : s.owner u = .host) :
      exec (.bufWrite u i v) s = .next ((s.answer .none).bufWrite u i.toNat v) :=
    congrArg _ (command_hostAccess_of_owner _ hf hc ho)
  refine ⟨fun hc => congrArg _ (command_hostAccess_of_not_configured _ hf hc),
    fun hc ho => congrArg _ (command_hostAccess_of_not_owner _ hf hc ho),
    fun hc ho hi => (hpass hc ho).trans (congrArg _ (if_neg (Nat.not_lt.2 hi))), fun hc ho hi => ?_⟩
  have hwrite : exec (.bufWrite u i v) s = .next ((s.answer .none).setBuf u ((s.buf u).write i.toNat v)) :=
    (hpass hc ho).trans (congrArg _ (if_pos hi))
  exact ⟨by rintro rfl; exact hwrite, by rintro rfl; exact hwrite⟩

/-- Settles O27: the three checks of rule R108 in their order, then the two registers. -/
theorem setFrameCommand : Obligations.SetFrameCommand := by
  intro u addr n s hf inQueue fails
  have hqueue : inQueue ↔ ¬s.inQueue u = false := by cases u <;> simp [inQueue, State.inQueue]
  simp only [← State.configured_eq_false, hqueue, not_not]
  have hexec : exec (.setFrame u addr n) s = .next (
      if s.configured u = false then (s.answer .none).raise .notConfigured
      else if s.inQueue u = false then (s.answer .none).raise .ownership
      else if min s.cfg.bufferMax 252 < n.toNat then (s.answer .none).raise .length
      else (s.answer .none).setFrameFields u addr n.toNat) := congrArg _ (State.command_of_ok _ hf)
  refine ⟨fun hc => ?_, fun hc hq => ?_, fun hc hq hn => ?_, fun hc hq hn => ?_⟩
  · rw [if_pos hc] at hexec; exact hexec
  · rw [if_neg hc, if_pos hq] at hexec; exact hexec
  · rw [if_neg hc, if_neg hq, if_pos hn] at hexec; exact hexec
  · rw [if_neg hc, if_neg hq, if_neg (Nat.not_lt.2 hn)] at hexec
    exact ⟨by rintro rfl; exact hexec, by rintro rfl; exact hexec⟩

end Sys2Proof.Machine
end

section
/-! PROOFS. What a POLL leaves of a buffer that its host owns (rules R105, R218, R219, R314). -/

namespace Sys2Proof.Machine

/-- What holds before the rest of a command, and is kept by it, holds after it: a fault only skips the rest. -/
theorem State.andThen_keeps {P : State → Prop} {s : State} {f : State → State} (h : P s) (k : P s → P (f s)) :
    P (s.andThen f) := by
  obtain ⟨-, -, e⟩ | ⟨-, e⟩ := State.andThen_cases s f
  · rwa [e]
  · rw [e]; exact k h

/-- In `t` the host owns framer `u`'s buffer, no master engine is bound to `u`, and `u` holds the frame that it holds in
`s`. -/
structure HostHolds (u : FramerKind) (s t : State) : Prop where
  master : t.cfg.master ≠ some u
  owner : t.owner u = .host
  buf : t.buf u = s.buf u
  bufferLen : t.bufferLen u = s.bufferLen u
  frameAddress : t.frameAddress u = s.frameAddress u

section

variable {u : FramerKind} {s t : State}

theorem HostHolds.ite {t' : State} {c : Prop} [Decidable c] (ht : c → HostHolds u s t) (ht' : ¬c → HostHolds u s t') :
    HostHolds u s (if c then t else t') := iteInduction ht ht'

theorem HostHolds.answer (r : Result) (h : HostHolds u s t) : HostHolds u s (t.answer r) :=
  ⟨h.master, h.owner, h.buf, h.bufferLen, h.frameAddress⟩

theorem HostHolds.raise (r : Fault) (h : HostHolds u s t) : HostHolds u s (t.raise r) :=
  ⟨h.master, h.owner, h.buf, h.bufferLen, h.frameAddress⟩

/-- A command keeps what its body keeps. -/
theorem HostHolds.command {f : State → State} (h : HostHolds u s t)
    (hf : ∀ {t : State}, HostHolds u s t → HostHolds u s (f t)) : HostHolds u s (t.command f) :=
  State.andThen_keeps h fun h => hf (h.answer .none)

/-- Where no master engine is bound to the framer, a frame is left to the host (rules R221, R312). -/
theorem HostHolds.notifyMaster (env : Inputs) (h : HostHolds u s t) : HostHolds u s (notifyMaster u env t) := by
  rwa [Machine.notifyMaster, if_neg h.master]

end

/-! ### RTU -/

section Rtu

variable {s t : State} (env : Inputs)

section

variable (h : HostHolds .rtu s t)
include h

theorem HostHolds.rtuSt_cases : t.rtu.st = .frameReady ∨ t.rtu.st = .collision ∨ t.rtu.st = .queue :=
  (RtuSt.owner_eq_host _).1 h.owner

/-- Of the host's states the timers leave `collision` only, for `frame_ready` (rule R212). -/
theorem HostHolds.rtuPollTimers : HostHolds .rtu s (rtuPollTimers env t) := by
  refine .ite (fun _ => ?_) fun _ => h
  obtain e | e | e := h.rtuSt_cases <;> rw [e]
  · exact h
  · exact HostHolds.notifyMaster env ⟨h.master, rfl, h.buf, h.bufferLen, h.frameAddress⟩
  · exact h

/-- A byte over a ready frame is a collision, and in the other two states it is dropped (rules R218, R219). -/
theorem HostHolds.rtuOnByte (b : Byte) : HostHolds .rtu s (rtuOnByte env b t) := by
  obtain e | e | e := h.rtuSt_cases <;> simp only [Machine.rtuOnByte, e] <;>
    exact ⟨h.master, rfl, h.buf, h.bufferLen, h.frameAddress⟩

/-- A read error is recorded, and changes nothing else in the host's states (rule R240). -/
theorem HostHolds.rtuReadError : HostHolds .rtu s (rtuReadError env t) := by
  obtain e | e | e := h.rtuSt_cases <;> simp only [Machine.rtuReadError, State.emitCause_rtu, e] <;>
    exact ⟨h.master, h.owner, h.buf, h.bufferLen, h.frameAddress⟩

/-- In the host's states the framer does not transmit. -/
theorem HostHolds.rtuTransmitPhase : HostHolds .rtu s (rtuTransmitPhase env t) := by
  have hst : t.rtu.st.transmitting = false := by obtain e | e | e := h.rtuSt_cases <;> rw [e] <;> rfl
  rwa [Machine.rtuTransmitPhase, hst]

end

theorem HostHolds.rtuDrain : ∀ (bs : List Byte) {t : State}, HostHolds .rtu s t → HostHolds .rtu s (rtuDrain env bs t)
  | [], _, h => .ite (fun _ => h.rtuReadError env) fun _ => h
  | b :: bs, _, h => State.andThen_keeps (h.rtuOnByte env b) (HostHolds.rtuDrain bs)

/-- An RTU framer's POLL. -/
theorem HostHolds.rtuPoll (h : HostHolds .rtu s t) : HostHolds .rtu s (rtuPoll env t) := by
  refine .ite (fun _ => ?_) fun _ => h.raise _
  refine .ite (fun _ => h.answer _) fun _ => ?_
  exact State.andThen_keeps (h.rtuPollTimers env) fun h => State.andThen_keeps (h.rtuDrain env env.rx) fun h =>
    State.andThen_keeps (h.rtuTransmitPhase env) (HostHolds.answer _)

end Rtu

/-! ### ASCII -/

section Ascii

variable {s t : State} (env : Inputs)

section

variable (h : HostHolds .ascii s t)
include h

theorem HostHolds.ascSt_cases : t.asc.st = .frameReady ∨ t.asc.st = .collision ∨ t.asc.st = .queue :=
  (AscSt.owner_eq_host _).1 h.owner

theorem HostHolds.ascReceiving : t.asc.st.receiving = false := by
  obtain e | e | e := h.ascSt_cases <;> rw [e] <;> rfl

/-- Of the host's states the timer leaves `collision` only, for `frame_ready` (rule R306). -/
theorem HostHolds.ascPollTimers : HostHolds .ascii s (ascPollTimers env t) := by
  refine .ite (fun _ => ?_) fun _ => h
  rw [h.ascReceiving, if_neg Bool.false_ne_true]
  exact .ite (fun _ => HostHolds.notifyMaster env
    ⟨h.master, rfl, h.buf, h.bufferLen, h.frameAddress⟩) fun _ => h

/-- A character over a ready frame is a collision, and in the other two states it is dropped (rule R314). -/
theorem HostHolds.ascOnChar (c : Byte) : HostHolds .ascii s (ascOnChar env c t) := by
  obtain e | e | e := h.ascSt_cases <;> simp only [Machine.ascOnChar, e] <;>
    exact ⟨h.master, rfl, h.buf, h.bufferLen, h.frameAddress⟩

/-- A read error is recorded, and changes nothing else in the host's states (rule R317). -/
theorem HostHolds.ascReadError : HostHolds .ascii s (ascReadError t) := by
  simp only [Machine.ascReadError, State.emitCause_asc, h.ascReceiving]
  exact ⟨h.master, h.owner, h.buf, h.bufferLen, h.frameAddress⟩

/-- In the host's states the framer does not transmit. -/
theorem HostHolds.ascTransmitPhase : HostHolds .ascii s (ascTransmitPhase env t) := by
  have hst : t.asc.st.transmitting = false := by obtain e | e | e := h.ascSt_cases <;> rw [e] <;> rfl
  rwa [Machine.ascTransmitPhase, hst]

end

theorem HostHolds.ascDrain : ∀ (cs : List Byte) {t : State}, HostHolds .ascii s t →
    HostHolds .ascii s (ascDrain env cs t)
  | [], _, h => .ite (fun _ => h.ascReadError) fun _ => h
  | c :: cs, _, h => State.andThen_keeps (h.ascOnChar env c) (HostHolds.ascDrain cs)

/-- An ASCII framer's POLL. -/
theorem HostHolds.ascPoll (h : HostHolds .ascii s t) : HostHolds .ascii s (ascPoll env t) := by
  refine .ite (fun _ => h.answer _) fun _ => ?_
  exact State.andThen_keeps (h.ascPollTimers env) fun h => State.andThen_keeps (h.ascDrain env env.rx) fun h =>
    State.andThen_keeps (h.ascTransmitPhase env) (HostHolds.answer _)

end Ascii

/-- Settles O59: what the host holds, it holds through each phase of a POLL. -/
theorem hostOwnedBufferIsKept : Obligations.HostOwnedBufferIsKept := by
  refine fun s t => ⟨?_, ?_⟩ <;> rintro ⟨⟩ hm hst
  · have h : HostHolds .rtu s s := ⟨hm, (RtuSt.owner_eq_host _).2 (by simpa using hst), rfl, rfl, rfl⟩
    have ht := h.command (HostHolds.rtuPoll s.inputs)
    exact ⟨ht.buf, ht.bufferLen, ht.frameAddress, by simpa using ht.rtuSt_cases⟩
  · have h : HostHolds .ascii s s := ⟨hm, (AscSt.owner_eq_host _).2 (by simpa using hst), rfl, rfl, rfl⟩
    have ht := h.command (HostHolds.ascPoll s.inputs)
    exact ⟨ht.buf, ht.bufferLen, ht.frameAddress, by simpa using ht.ascSt_cases⟩

end Sys2Proof.Machine
end

section
/-! PROOFS. A framer writes its buffer below CAP only (rules R101, R227, R315). -/

namespace Sys2Proof.Machine

/-- `t` differs from `s` in framer `u`'s buffer only below CAP, and `buffer_len` is within CAP. -/
structure BelowCap (u : FramerKind) (s t : State) : Prop where
  cfg : t.cfg = s.cfg
  bufferLen : t.bufferLen u ≤ cap s.cfg
  read : ∀ k, cap s.cfg ≤ k → (t.buf u).read k = (s.buf u).read k

@[simp] theorem rtuTxAdvance_bufferLen (c : Config) (r : RtuFramer) : (rtuTxAdvance c r).bufferLen = r.bufferLen := by
  fun_cases rtuTxAdvance c r <;> rfl

@[simp] theorem rtuTxAdvance_buf (c : Config) (r : RtuFramer) : (rtuTxAdvance c r).buf = r.buf := by
  fun_cases rtuTxAdvance c r <;> rfl

@[simp] theorem ascTxAdvance_bufferLen (a : AscFramer) : (ascTxAdvance a).bufferLen = a.bufferLen := by
  fun_cases ascTxAdvance a <;> rfl

@[simp] theorem ascTxAdvance_buf (a : AscFramer) : (ascTxAdvance a).buf = a.buf := by
  fun_cases ascTxAdvance a <;> rfl

@[simp] theorem State.bufferLen_bufWrite (u v : FramerKind) (i : Nat) (b : Byte) (s : State) :
    (s.bufWrite u i b).bufferLen v = s.bufferLen v := by
  obtain ⟨-, e⟩ | ⟨-, e⟩ := bufWrite_cases s u i b <;> rw [e]
  · cases u <;> cases v <;> rfl
  · rfl

/-! ### Operations of either framer -/

section

variable {u : FramerKind} {s t t' : State} (h : BelowCap u s t)
include h

/-- The buffer and its length left alone. -/
theorem BelowCap.of_same (hc : t'.cfg = t.cfg) (hl : t'.bufferLen u = t.bufferLen u) (hb : t'.buf u = t.buf u) :
    BelowCap u s t' :=
  ⟨hc.trans h.cfg, hl ▸ h.bufferLen, hb ▸ h.read⟩

/-- The buffer left alone and its length cleared. -/
theorem BelowCap.of_cleared (hc : t'.cfg = t.cfg) (hl : t'.bufferLen u = 0) (hb : t'.buf u = t.buf u) :
    BelowCap u s t' :=
  ⟨hc.trans h.cfg, hl ▸ Nat.zero_le _, hb ▸ h.read⟩

theorem BelowCap.answer (r : Result) : BelowCap u s (t.answer r) := h.of_same rfl rfl rfl

theorem BelowCap.raise (r : Fault) : BelowCap u s (t.raise r) := h.of_same rfl rfl rfl

theorem BelowCap.emit (e : Event) : BelowCap u s (t.emit e) := h.of_same rfl rfl rfl

omit h in
theorem BelowCap.ite {c : Prop} [Decidable c] (ht : c → BelowCap u s t) (ht' : ¬c → BelowCap u s t') :
    BelowCap u s (if c then t else t') := iteInduction ht ht'

/-- A write at an index below CAP. -/
theorem BelowCap.bufWrite {i : Nat} (hi : i < cap t.cfg) (v : Byte) : BelowCap u s (t.bufWrite u i v) := by
  obtain ⟨-, e⟩ | ⟨-, e⟩ := bufWrite_cases t u i v
  · refine ⟨?_, ?_, fun k hk => ?_⟩
    · rw [e, State.setBuf_cfg, h.cfg]
    · rw [State.bufferLen_bufWrite]; exact h.bufferLen
    · have hki : k ≠ i := by rw [h.cfg] at hi; omega
      rw [e, State.buf_setBuf, Memory.read_write_other _ _ hki, h.read k hk]
  · rw [e]; exact h.raise _

/-- A byte written at `buffer_len`, which is below CAP, and `buffer_len` moved on (rules R217, R310). -/
theorem BelowCap.append {f : State → State} (hne : t.bufferLen u ≠ cap t.cfg) (v : Byte)
    (hf : ∀ x : State, (f x).cfg = x.cfg ∧ (f x).bufferLen u = x.bufferLen u + 1 ∧ (f x).buf u = x.buf u) :
    BelowCap u s ((t.bufWrite u (t.bufferLen u) v).andThen f) := by
  have hlen : t.bufferLen u < cap t.cfg := lt_of_le_of_ne (h.cfg ▸ h.bufferLen) hne
  refine State.andThen_keeps (h.bufWrite hlen v) fun hw => ?_
  obtain ⟨hc, hl, hb⟩ := hf (t.bufWrite u (t.bufferLen u) v)
  rw [State.bufferLen_bufWrite] at hl
  exact ⟨hc.trans hw.cfg, by rw [hl, ← h.cfg]; exact hlen, by rw [hb]; exact hw.read⟩

/-- FINISHED at most clears the length. -/
theorem BelowCap.framerFinished : BelowCap u s (framerFinished u t) := by
  cases u
  · exact .ite (fun _ => .ite (fun _ => h.of_cleared rfl rfl rfl) fun _ => h) fun _ => h.raise _
  · exact .ite (fun _ => h.of_cleared rfl rfl rfl) fun _ => h

/-- What the engine makes of a reply ends with FINISHED (rules R454, R455). -/
theorem BelowCap.processReply (env : Inputs) : BelowCap u s (processReply u env t) := by
  rw [Machine.processReply]
  split
  · exact h.raise _
  · split
    · exact State.andThen_keeps ((h.emit _).emit _).framerFinished fun h => h.of_same rfl rfl rfl
    · exact State.andThen_keeps (h.emit _).framerFinished fun h => h.of_same rfl rfl rfl

/-- The engine only finishes with the frame (rules R450 to R455). -/
theorem BelowCap.notifyMaster (env : Inputs) : BelowCap u s (notifyMaster u env t) := by
  refine .ite (fun _ => ?_) fun _ => h
  refine .ite (fun _ => (h.emit _).framerFinished) fun _ => ?_
  refine .ite (fun _ => ?_) fun _ => ?_
  · have hstale : BelowCap u s { t.emit .stale with mst := { t.mst with stamp := nowTick t.cfg env } } :=
      h.of_same rfl rfl rfl
    exact hstale.framerFinished
  · have hproc : BelowCap u s (t.setMstSt .processingReply) := h.of_same rfl rfl rfl
    exact hproc.processReply env

end

/-! ### RTU -/

section Rtu

variable {s t : State} (env : Inputs)

section

variable (h : BelowCap .rtu s t)
include h

theorem BelowCap.rtuFrameEnd : BelowCap .rtu s (rtuFrameEnd env t) := by
  have reject (c : Cause) : BelowCap .rtu s (rtuReject c t) := h.of_cleared rfl rfl rfl
  have hready : BelowCap .rtu s { t with rtu := { t.rtu with st := .frameReady } } := h.of_same rfl rfl rfl
  refine .ite (fun _ => reject _) fun _ => ?_
  refine .ite (fun _ => reject _) fun _ => ?_
  exact .ite (fun _ => (hready.emit _).notifyMaster env) fun _ => reject _

theorem BelowCap.rtuPollTimers : BelowCap .rtu s (rtuPollTimers env t) := by
  have hready : BelowCap .rtu s { t with rtu := { t.rtu with st := .frameReady } } := h.of_same rfl rfl rfl
  refine .ite (fun _ => ?_) fun _ => h
  split
  · exact h.rtuFrameEnd env
  · exact h.of_same rfl rfl rfl
  · exact hready.notifyMaster env
  · exact h.of_cleared rfl rfl rfl
  all_goals exact h

theorem BelowCap.rtuReceiveByte (b : Byte) (gap : Nat) : BelowCap .rtu s (rtuReceiveByte b gap t) := by
  have dump (c : Cause) : BelowCap .rtu s (rtuDump c t) := h.of_cleared rfl rfl rfl
  refine .ite (fun _ => dump _) fun _ => ?_
  refine .ite (fun _ => ?_) fun _ => ?_
  · exact .ite (fun _ => dump _) fun hne =>
      h.append hne _ fun _ => ⟨rfl, rfl, rfl⟩
  · exact .ite (fun _ => h.of_same rfl rfl rfl) fun _ => h.of_same rfl rfl rfl

theorem BelowCap.rtuOnByte (b : Byte) : BelowCap .rtu s (rtuOnByte env b t) := by
  have hlast : BelowCap .rtu s { t with rtu := { t.rtu with last := nowTick t.cfg env } } := h.of_same rfl rfl rfl
  rw [Machine.rtuOnByte]
  dsimp only
  split
  · exact h.of_cleared rfl rfl rfl
  · exact hlast.rtuReceiveByte b _
  · exact h.of_same rfl rfl rfl
  all_goals exact hlast

theorem BelowCap.rtuReadError : BelowCap .rtu s (rtuReadError env t) := by
  rw [Machine.rtuReadError]
  dsimp only
  split
  iterate 3 exact h.of_cleared rfl rfl rfl
  all_goals exact h.of_same rfl rfl rfl

end

theorem BelowCap.rtuDrain : ∀ (bs : List Byte) {t : State}, BelowCap .rtu s t → BelowCap .rtu s (rtuDrain env bs t)
  | [], _, h => .ite (fun _ => h.rtuReadError env) fun _ => h
  | b :: bs, _, h => State.andThen_keeps (h.rtuOnByte env b) (BelowCap.rtuDrain bs)

/-- Transmission reads the buffer; a write error clears its length (rules R233, R234). -/
theorem BelowCap.rtuTxLoop : ∀ (fuel : Nat) (left : Option Nat) {t : State}, BelowCap .rtu s t →
    BelowCap .rtu s (rtuTxLoop env fuel left t)
  | 0, _, _, h => h
  | fuel + 1, left, t, h => by
    rw [Machine.rtuTxLoop]
    split
    · split
      · exact h.raise _
      · split
        · exact h.of_cleared rfl rfl rfl
        · exact h
        · exact BelowCap.rtuTxLoop fuel _ (h.of_same rfl (rtuTxAdvance_bufferLen ..) (rtuTxAdvance_buf ..))
    · exact h

theorem BelowCap.rtuTxProgress (h : BelowCap .rtu s t) : BelowCap .rtu s (rtuTxProgress env t) :=
  State.andThen_keeps (h.rtuTxLoop env _ _) fun h =>
    .ite (fun _ => .ite (fun _ => h.of_same rfl rfl rfl) fun _ => h) fun _ => h

/-- An RTU framer's POLL. -/
theorem BelowCap.rtuPoll (h : BelowCap .rtu s t) : BelowCap .rtu s (rtuPoll env t) := by
  refine .ite (fun _ => ?_) fun _ => h.raise _
  refine .ite (fun _ => h.answer _) fun _ => ?_
  refine State.andThen_keeps (h.rtuPollTimers env) fun h => State.andThen_keeps (h.rtuDrain env env.rx) fun h => ?_
  exact State.andThen_keeps (.ite (fun _ => h.rtuTxProgress env) fun _ => h) fun h => h.answer _

end Rtu

/-! ### ASCII -/

section Ascii

variable {s t : State} (env : Inputs)

section

variable (h : BelowCap .ascii s t)
include h

/-- A frame abandoned clears the length (rules R306, R311, R312, R315). -/
theorem BelowCap.ascDiscard (c : Cause) : BelowCap .ascii s (ascDiscard c t) := h.of_cleared rfl rfl rfl

theorem BelowCap.ascPollTimers : BelowCap .ascii s (ascPollTimers env t) := by
  have hready : BelowCap .ascii s { t with asc := { t.asc with st := .frameReady } } := h.of_same rfl rfl rfl
  refine .ite (fun _ => ?_) fun _ => h
  exact .ite (fun _ => h.ascDiscard _) fun _ => .ite (fun _ => hready.notifyMaster env) fun _ => h

theorem BelowCap.ascFrameEnd : BelowCap .ascii s (ascFrameEnd env t) := by
  have hready : BelowCap .ascii s { t with asc := { t.asc with st := .frameReady } } := h.of_same rfl rfl rfl
  refine .ite (fun _ => h.ascDiscard _) fun _ => .ite (fun _ => h.ascDiscard _) fun _ => ?_
  exact .ite (fun _ => (hready.emit _).notifyMaster env) fun _ => h.ascDiscard _

/-- The pending byte is written where `buffer_len` is below CAP; at CAP the frame overflows (rule R315). -/
theorem BelowCap.ascDecodedByte (v : Byte) : BelowCap .ascii s (ascDecodedByte v t) := by
  refine .ite (fun _ => ?_) fun _ => h.of_same rfl rfl rfl
  exact .ite (fun _ => h.ascDiscard _) fun hne => h.append hne _ fun _ => ⟨rfl, rfl, rfl⟩

theorem BelowCap.ascReceiveChar (c : Byte) : BelowCap .ascii s (ascReceiveChar env c t) := by
  rw [Machine.ascReceiveChar]
  split
  · exact h.of_same rfl rfl rfl
  · exact h.of_same rfl rfl rfl
  · exact h.of_same rfl rfl rfl
  · exact h.ascDecodedByte _
  · exact .ite (fun _ => h.of_same rfl rfl rfl) fun _ => h.ascDiscard _
  · exact .ite (fun _ => h.ascFrameEnd env) fun _ => h.ascDiscard _
  · exact h.ascDiscard _

theorem BelowCap.ascOnChar (c : Byte) : BelowCap .ascii s (ascOnChar env c t) := by
  have hlast : BelowCap .ascii s { t with asc := { t.asc with last := nowTick t.cfg env } } := h.of_same rfl rfl rfl
  rw [Machine.ascOnChar]
  dsimp only
  split
  · exact .ite (fun _ => h.of_cleared rfl rfl rfl) fun _ => hlast
  iterate 5 exact .ite (fun _ => h.of_cleared rfl rfl rfl) fun _ => hlast.ascReceiveChar env c
  · exact h.of_same rfl rfl rfl
  all_goals exact hlast

theorem BelowCap.ascReadError : BelowCap .ascii s (ascReadError t) :=
  .ite (fun _ => h.of_cleared rfl rfl rfl) fun _ => h.emit _

end

theorem BelowCap.ascDrain : ∀ (cs : List Byte) {t : State}, BelowCap .ascii s t → BelowCap .ascii s (ascDrain env cs t)
  | [], _, h => .ite (fun _ => h.ascReadError) fun _ => h
  | c :: cs, _, h => State.andThen_keeps (h.ascOnChar env c) (BelowCap.ascDrain cs)

/-- Transmission reads the buffer; a write error clears its length (rules R323, R325). -/
theorem BelowCap.ascTxLoop : ∀ (fuel : Nat) (left : Option Nat) {t : State}, BelowCap .ascii s t →
    BelowCap .ascii s (ascTxLoop env fuel left t)
  | 0, _, _, h => h
  | fuel + 1, left, t, h => by
    rw [Machine.ascTxLoop]
    split
    · split
      · exact h.raise _
      · split
        · exact h.of_cleared rfl rfl rfl
        · exact h
        · exact BelowCap.ascTxLoop fuel _ (h.of_same rfl (ascTxAdvance_bufferLen ..) (ascTxAdvance_buf ..))
    · exact h

theorem BelowCap.ascTxProgress (h : BelowCap .ascii s t) : BelowCap .ascii s (ascTxProgress env t) :=
  State.andThen_keeps (h.ascTxLoop env _ _) fun h =>
    .ite (fun _ => .ite (fun _ => h.of_cleared rfl rfl rfl) fun _ => h) fun _ => h

/-- An ASCII framer's POLL. -/
theorem BelowCap.ascPoll (h : BelowCap .ascii s t) : BelowCap .ascii s (ascPoll env t) := by
  refine .ite (fun _ => h.answer _) fun _ => ?_
  refine State.andThen_keeps (h.ascPollTimers env) fun h => State.andThen_keeps (h.ascDrain env env.rx) fun h => ?_
  exact State.andThen_keeps (.ite (fun _ => h.ascTxProgress env) fun _ => h) fun h => h.answer _

end Ascii

/-- Settles O60: each phase of a POLL that starts with `buffer_len` within CAP writes below CAP only, and ends so. -/
theorem framerWritesOnlyBelowCap : Obligations.FramerWritesOnlyBelowCap := by
  refine fun s t => ⟨?_, ?_⟩ <;> rintro ⟨⟩ hl
  · have h : BelowCap .rtu s s := ⟨rfl, hl, fun _ _ => rfl⟩
    have ht : BelowCap .rtu s (s.command (rtuPoll s.inputs)) :=
      State.andThen_keeps h fun h => (h.answer .none).rtuPoll s.inputs
    exact ⟨ht.bufferLen, ht.read⟩
  · have h : BelowCap .ascii s s := ⟨rfl, hl, fun _ _ => rfl⟩
    have ht : BelowCap .ascii s (s.command (ascPoll s.inputs)) :=
      State.andThen_keeps h fun h => (h.answer .none).ascPoll s.inputs
    exact ⟨ht.bufferLen, ht.read⟩

end Sys2Proof.Machine
end

section
/-! PROOFS. The decoder and the encoder are inverse (rules R140, R143, R145, R148 to R150, R170): each operand form as an
`↔`, used from right to left for the decoding of an encoding and from left to right for the encoding of what is decoded. -/

namespace Sys2Proof

/-! ### Operand forms of the host commands -/

section OperandForms

variable {i j : Instr} {args : List Byte}

theorem operands0_eq_some : operands0 j args = some i ↔ args = [] ∧ j = i := by
  cases args <;> simp [operands0]

theorem operands8_eq_some {f : Byte → Instr} : operands8 f args = some i ↔ ∃ a, args = [a] ∧ f a = i := by
  constructor
  · intro h
    obtain _ | ⟨a, _ | ⟨b, rest⟩⟩ := args <;> simp_all [operands8]
  · rintro ⟨a, rfl, rfl⟩; rfl

theorem operands16_eq_some {f : Word16 → Instr} :
    operands16 f args = some i ↔ ∃ v, args = [hi8 v, lo8 v] ∧ f v = i := by
  constructor
  · intro h
    unfold operands16 at h
    split at h
    next h' l => exact ⟨be16 h' l, by simp, Option.some.inj h⟩
    next => cases h
  · rintro ⟨v, rfl, rfl⟩; simp [operands16]

theorem operands32_eq_some {f : Word32 → Instr} :
    operands32 f args = some i ↔ ∃ v, args = bytesOf32 v ∧ f v = i := by
  constructor
  · intro h
    unfold operands32 at h
    split at h
    next b3 b2 b1 b0 => exact ⟨be32 b3 b2 b1 b0, by simp, Option.some.inj h⟩
    next => cases h
  · rintro ⟨v, rfl, rfl⟩; simp [operands32, bytesOf32]

theorem operands32x3_eq_some {f : Word32 → Word32 → Word32 → Instr} :
    operands32x3 f args = some i ↔ ∃ a b c, args = bytesOf32 a ++ bytesOf32 b ++ bytesOf32 c ∧ f a b c = i := by
  constructor
  · intro h
    unfold operands32x3 at h
    split at h
    next a3 a2 a1 a0 b3 b2 b1 b0 c3 c2 c1 c0 =>
      exact ⟨be32 a3 a2 a1 a0, be32 b3 b2 b1 b0, be32 c3 c2 c1 c0, by simp, Option.some.inj h⟩
    next => cases h
  · rintro ⟨a, b, c, rfl, rfl⟩; simp [operands32x3, bytesOf32]

theorem operands16x8_eq_some {f : Word16 → Byte → Instr} :
    operands16x8 f args = some i ↔ ∃ v b, args = [hi8 v, lo8 v, b] ∧ f v b = i := by
  constructor
  · intro h
    unfold operands16x8 at h
    split at h
    next h' l b => exact ⟨be16 h' l, b, by simp, Option.some.inj h⟩
    next => cases h
  · rintro ⟨v, b, rfl, rfl⟩; simp [operands16x8]

theorem operands8x16_eq_some {f : Byte → Word16 → Instr} :
    operands8x16 f args = some i ↔ ∃ b v, args = [b, hi8 v, lo8 v] ∧ f b v = i := by
  constructor
  · intro h
    unfold operands8x16 at h
    split at h
    next b h' l => exact ⟨b, be16 h' l, by simp, Option.some.inj h⟩
    next => cases h
  · rintro ⟨b, v, rfl, rfl⟩; simp [operands8x16]

theorem operands8x16x16_eq_some {f : Byte → Word16 → Word16 → Instr} :
    operands8x16x16 f args = some i ↔ ∃ s a c, args = [s, hi8 a, lo8 a, hi8 c, lo8 c] ∧ f s a c = i := by
  constructor
  · intro h
    unfold operands8x16x16 at h
    split at h
    next s ah al ch cl => exact ⟨s, be16 ah al, be16 ch cl, by simp, Option.some.inj h⟩
    next => cases h
  · rintro ⟨s, a, c, rfl, rfl⟩; simp [operands8x16x16]

theorem operandsCoil_eq_some : operandsCoil args = some i ↔
    ∃ s a v, (v = 0x00#8 ∨ v = 0x01#8) ∧ args = [s, hi8 a, lo8 a, v] ∧ .writeSingleCoil s a v = i := by
  constructor
  · intro h
    unfold operandsCoil at h
    split at h
    next s ah al v =>
      rw [Option.ite_none_right_eq_some] at h
      exact ⟨s, be16 ah al, v, h.1, by simp, Option.some.inj h.2⟩
    next => cases h
  · rintro ⟨s, a, v, hv, rfl, rfl⟩; simp [operandsCoil, hv]

theorem operandsCoils_eq_some : operandsCoils args = some i ↔
    ∃ s a c bits, bits.length = coilBytes c ∧ args = [s, hi8 a, lo8 a, hi8 c, lo8 c] ++ bits ∧
      .writeMultipleCoils s a c bits = i := by
  constructor
  · intro h
    unfold operandsCoils at h
    split at h
    next s ah al ch cl bits =>
      rw [Option.ite_none_right_eq_some] at h
      exact ⟨s, be16 ah al, be16 ch cl, bits, h.1, by simp, Option.some.inj h.2⟩
    next => cases h
  · rintro ⟨s, a, c, bits, hb, rfl, rfl⟩; simp [operandsCoils, hb]

/-- Bytes that read as values, as those values' bytes. -/
theorem wordsOfBytes_eq_some {bs : List Byte} {ws : List Word16} : wordsOfBytes bs = some ws ↔ bs = bytesOfWords ws :=
  ⟨fun h => (bytesOfWords_of_wordsOfBytes bs ws h).symm, by rintro rfl; simp⟩

theorem operandsRegisters_eq_some : operandsRegisters args = some i ↔
    ∃ s a c values, values.length = c.toNat ∧ args = [s, hi8 a, lo8 a, hi8 c, lo8 c] ++ bytesOfWords values ∧
      .writeMultipleRegisters s a c values = i := by
  constructor
  · intro h
    unfold operandsRegisters at h
    split at h
    next s ah al ch cl rest =>
      split at h
      next values hv =>
        rw [Option.ite_none_right_eq_some] at h
        exact ⟨s, be16 ah al, be16 ch cl, values, h.1, by simp [wordsOfBytes_eq_some.1 hv], Option.some.inj h.2⟩
      next => cases h
    next => cases h
  · rintro ⟨s, a, c, values, hn, rfl, rfl⟩; simp [operandsRegisters, hn]

theorem operandsReadWrite_eq_some : operandsReadWrite args = some i ↔
    ∃ s ra rc wa wc values, values.length = wc.toNat ∧
      args = [s, hi8 ra, lo8 ra, hi8 rc, lo8 rc, hi8 wa, lo8 wa, hi8 wc, lo8 wc] ++ bytesOfWords values ∧
      .readWriteMultipleRegisters s ra rc wa wc values = i := by
  constructor
  · intro h
    unfold operandsReadWrite at h
    split at h
    next s rah ral rch rcl wah wal wch wcl rest =>
      split at h
      next values hv =>
        rw [Option.ite_none_right_eq_some] at h
        exact ⟨s, be16 rah ral, be16 rch rcl, be16 wah wal, be16 wch wcl, values, h.1,
          by simp [wordsOfBytes_eq_some.1 hv], Option.some.inj h.2⟩
      next => cases h
    next => cases h
  · rintro ⟨s, ra, rc, wa, wc, values, hn, rfl, rfl⟩; simp [operandsReadWrite, hn]

/-! ### Fields of the PDUs -/

theorem checked_eq_some {o : Option Instr} : checked o = some i ↔ o = some i ∧ i.wf = true := by
  simp [checked, Option.filter_eq_some_iff]

theorem fieldsWords_eq_some {f : Word16 → Word16 → Instr} :
    fieldsWords f args = some i ↔ ∃ a v, args = [hi8 a, lo8 a, hi8 v, lo8 v] ∧ f a v = i := by
  constructor
  · intro h
    unfold fieldsWords at h
    split at h
    next ah al vh vl => exact ⟨be16 ah al, be16 vh vl, by simp, Option.some.inj h⟩
    next => cases h
  · rintro ⟨a, v, rfl, rfl⟩; simp [fieldsWords]

theorem fieldsValues_eq_some {f : List Word16 → Instr} :
    fieldsValues f args = some i ↔ ∃ ws, args = bytesOfWords ws ∧ f ws = i := by
  simp [fieldsValues, wordsOfBytes_eq_some]

end OperandForms

/-! ### What a decoder reads is spelled by the encoder -/

/-- `m` is the message that spells the well-formed instruction `i` at port `p`. -/
structure Instr.Spells (i : Instr) (p : Port) (m : List Byte) : Prop where
  wf : i.wf = true
  port : portOf i = p
  encode : encode i = m

theorem spells_of_decodeFramer {u : FramerKind} {op : Byte} {args : List Byte} {i : Instr}
    (h : decodeFramer u op args = some i) : i.Spells (framerPort u) (op :: args) := by
  unfold decodeFramer at h
  rw [ite_eq_iff] at h; obtain ⟨rfl, h⟩ | ⟨-, h⟩ := h
  · obtain ⟨rfl, rfl⟩ := operands0_eq_some.1 h
    cases u <;> exact ⟨rfl, rfl, rfl⟩
  rw [ite_eq_iff] at h; obtain ⟨rfl, h⟩ | ⟨-, h⟩ := h
  · cases u with
    | rtu => obtain ⟨a, b, c, rfl, rfl⟩ := operands32x3_eq_some.1 h; exact ⟨rfl, rfl, rfl⟩
    | ascii => cases h
  rw [ite_eq_iff] at h; obtain ⟨rfl, h⟩ | ⟨-, h⟩ := h
  · cases u with
    | rtu => cases h
    | ascii => obtain ⟨v, rfl, rfl⟩ := operands32_eq_some.1 h; exact ⟨rfl, rfl, rfl⟩
  rw [ite_eq_iff] at h; obtain ⟨rfl, h⟩ | ⟨-, h⟩ := h
  · obtain ⟨a, rfl, rfl⟩ := operands8_eq_some.1 h
    cases u <;> exact ⟨rfl, rfl, rfl⟩
  iterate 4
    rw [ite_eq_iff] at h; obtain ⟨rfl, h⟩ | ⟨-, h⟩ := h
    · obtain ⟨rfl, rfl⟩ := operands0_eq_some.1 h
      cases u <;> exact ⟨rfl, rfl, rfl⟩
  rw [ite_eq_iff] at h; obtain ⟨rfl, h⟩ | ⟨-, h⟩ := h
  · obtain ⟨v, rfl, rfl⟩ := operands16_eq_some.1 h; exact ⟨rfl, rfl, rfl⟩
  rw [ite_eq_iff] at h; obtain ⟨rfl, h⟩ | ⟨-, h⟩ := h
  · obtain ⟨v, b, rfl, rfl⟩ := operands16x8_eq_some.1 h; exact ⟨rfl, rfl, rfl⟩
  rw [ite_eq_iff] at h; obtain ⟨rfl, h⟩ | ⟨-, h⟩ := h
  · obtain ⟨b, v, rfl, rfl⟩ := operands8x16_eq_some.1 h; exact ⟨rfl, rfl, rfl⟩
  rw [ite_eq_iff] at h; obtain ⟨rfl, h⟩ | ⟨-, h⟩ := h
  · obtain ⟨rfl, rfl⟩ := operands0_eq_some.1 h; exact ⟨rfl, rfl, rfl⟩
  · cases h

theorem spells_of_decodeMaster {op : Byte} {args : List Byte} {i : Instr} (h : decodeMaster op args = some i) :
    i.Spells .mst (op :: args) := by
  unfold decodeMaster at h
  rw [ite_eq_iff] at h; obtain ⟨rfl, h⟩ | ⟨-, h⟩ := h
  · obtain ⟨rfl, rfl⟩ := operands0_eq_some.1 h; exact ⟨rfl, rfl, rfl⟩
  iterate 2
    rw [ite_eq_iff] at h; obtain ⟨rfl, h⟩ | ⟨-, h⟩ := h
    · obtain ⟨v, rfl, rfl⟩ := operands32_eq_some.1 h; exact ⟨rfl, rfl, rfl⟩
  iterate 3
    rw [ite_eq_iff] at h; obtain ⟨rfl, h⟩ | ⟨-, h⟩ := h
    · obtain ⟨rfl, rfl⟩ := operands0_eq_some.1 h; exact ⟨rfl, rfl, rfl⟩
  iterate 4
    rw [ite_eq_iff] at h; obtain ⟨rfl, h⟩ | ⟨-, h⟩ := h
    · obtain ⟨s, a, c, rfl, rfl⟩ := operands8x16x16_eq_some.1 h; exact ⟨rfl, rfl, rfl⟩
  rw [ite_eq_iff] at h; obtain ⟨rfl, h⟩ | ⟨-, h⟩ := h
  · obtain ⟨s, a, v, hv, rfl, rfl⟩ := operandsCoil_eq_some.1 h
    exact ⟨by simpa [Instr.wf] using hv, rfl, rfl⟩
  rw [ite_eq_iff] at h; obtain ⟨rfl, h⟩ | ⟨-, h⟩ := h
  · obtain ⟨s, a, c, rfl, rfl⟩ := operands8x16x16_eq_some.1 h; exact ⟨rfl, rfl, rfl⟩
  rw [ite_eq_iff] at h; obtain ⟨rfl, h⟩ | ⟨-, h⟩ := h
  · obtain ⟨s, a, c, bits, hb, rfl, rfl⟩ := operandsCoils_eq_some.1 h
    exact ⟨by simpa [Instr.wf] using hb, rfl, rfl⟩
  rw [ite_eq_iff] at h; obtain ⟨rfl, h⟩ | ⟨-, h⟩ := h
  · obtain ⟨s, a, c, values, hn, rfl, rfl⟩ := operandsRegisters_eq_some.1 h
    exact ⟨by simpa [Instr.wf] using hn, rfl, rfl⟩
  rw [ite_eq_iff] at h; obtain ⟨rfl, h⟩ | ⟨-, h⟩ := h
  · obtain ⟨s, ra, rc, wa, wc, values, hn, rfl, rfl⟩ := operandsReadWrite_eq_some.1 h
    exact ⟨by simpa [Instr.wf] using hn, rfl, rfl⟩
  · cases h

/-- A request PDU's fields; the checks of `Instr.wf` come after them. -/
theorem encode_of_requestFields {fc : Byte} {args : List Byte} {i : Instr} (h : requestFields fc args = some i) :
    portOf i = .request ∧ encode i = fc :: args := by
  unfold requestFields at h
  iterate 6
    rw [ite_eq_iff] at h; obtain ⟨rfl, h⟩ | ⟨-, h⟩ := h
    · obtain ⟨a, v, rfl, rfl⟩ := fieldsWords_eq_some.1 h; exact ⟨rfl, rfl⟩
  rw [ite_eq_iff] at h; obtain ⟨rfl, h⟩ | ⟨-, h⟩ := h
  · split at h
    next ah al qh ql bc d => cases h; simp [portOf, encode, pduWriteCoils]
    next => cases h
  rw [ite_eq_iff] at h; obtain ⟨rfl, h⟩ | ⟨-, h⟩ := h
  · split at h
    next => obtain ⟨ws, rfl, rfl⟩ := fieldsValues_eq_some.1 h; simp [portOf, encode, pduWriteRegisters]
    next => cases h
  rw [ite_eq_iff] at h; obtain ⟨rfl, h⟩ | ⟨-, h⟩ := h
  · split at h
    next => obtain ⟨ws, rfl, rfl⟩ := fieldsValues_eq_some.1 h; simp [portOf, encode, pduReadWriteRegisters]
    next => cases h
  · cases h

/-- Bit 7 of an exception reply's function code is set, and the other seven are the request's (rule R150). -/
theorem exceptionByte_extract {fc : Byte} : 128 ≤ fc.toNat → (1#1 ++ fc.extractLsb' 0 7 : Byte) = fc := by
  revert fc; decide +kernel

/-- A reply PDU's fields; the checks of `Instr.wf` come after them. -/
theorem encode_of_replyFields {fc : Byte} {args : List Byte} {i : Instr} (h : replyFields fc args = some i) :
    portOf i = .reply ∧ encode i = fc :: args := by
  unfold replyFields at h
  rw [ite_eq_iff] at h; obtain ⟨hfc, h⟩ | ⟨-, h⟩ := h
  · obtain ⟨code, rfl, rfl⟩ := operands8_eq_some.1 h
    simp [portOf, encode, pduException, exceptionByte_extract hfc]
  iterate 2
    rw [ite_eq_iff] at h; obtain ⟨rfl, h⟩ | ⟨-, h⟩ := h
    · split at h <;> cases h; exact ⟨rfl, rfl⟩
  iterate 2
    rw [ite_eq_iff] at h; obtain ⟨rfl, h⟩ | ⟨-, h⟩ := h
    · split at h
      next => obtain ⟨ws, rfl, rfl⟩ := fieldsValues_eq_some.1 h; exact ⟨rfl, rfl⟩
      next => cases h
  iterate 4
    rw [ite_eq_iff] at h; obtain ⟨rfl, h⟩ | ⟨-, h⟩ := h
    · obtain ⟨a, v, rfl, rfl⟩ := fieldsWords_eq_some.1 h; exact ⟨rfl, rfl⟩
  rw [ite_eq_iff] at h; obtain ⟨rfl, h⟩ | ⟨-, h⟩ := h
  · split at h
    next => obtain ⟨ws, rfl, rfl⟩ := fieldsValues_eq_some.1 h; exact ⟨rfl, rfl⟩
    next => cases h
  · cases h; exact ⟨rfl, rfl⟩

/-- An RTU ADU's fields (rule R140). -/
theorem encode_of_rtuAduFields {m : List Byte} {i : Instr} (h : rtuAduFields m = some i) :
    portOf i = .rtuLine ∧ encode i = m := by
  unfold rtuAduFields at h
  split at h
  next => cases h
  next address body =>
    split at h
    next lo hi hd =>
      cases h
      exact ⟨rfl, congrArg (address :: ·) (hd ▸ List.take_append_drop (body.length - 2) body)⟩
    next => cases h

/-! ### Characters of the ASCII line -/

/-- A hex digit of either case, in upper case, is the digit that the encoder writes. -/
theorem upperHex_of_hexval {c : Byte} {x : BitVec 4} : hexval c = some x → Machine.upperHex c = hexchar x := by
  revert c x; decide +kernel

/-- Hex pairs and CR LF, in upper case, are the characters of the bytes that they spell (rule R143). -/
theorem map_upperHex_of_bytesOfHex : ∀ {cs bs : List Byte}, bytesOfHex cs = some bs →
    cs.map Machine.upperHex = hexOfBytes bs ++ [chCr, chLf]
  | h :: l :: rest, bs, e => by
    rw [bytesOfHex] at e
    split at e
    next hend => obtain ⟨rfl, rfl, rfl⟩ := hend; cases e; rfl
    next =>
      split at e
      next x y hx hy =>
        obtain ⟨bs', hbs', rfl⟩ := Option.map_eq_some_iff.1 e
        simp [hexOfBytes, upperHex_of_hexval hx, upperHex_of_hexval hy, map_upperHex_of_bytesOfHex hbs']
      next => cases e

/-- An ASCII ADU's fields (rule R143). -/
theorem encode_of_asciiAduFields {m : List Byte} {i : Instr} (h : asciiAduFields m = some i) :
    portOf i = .ascLine ∧ encode i = m.map Machine.upperHex := by
  unfold asciiAduFields at h
  split at h
  next => cases h
  next c chars =>
    rw [Option.ite_none_right_eq_some] at h
    obtain ⟨rfl, h⟩ := h
    split at h
    next address body hb =>
      split at h
      next lrc hd =>
        cases h
        have hbody : body.take (body.length - 1) ++ [lrc] = body := hd ▸ List.take_append_drop _ body
        refine ⟨rfl, ?_⟩
        rw [encode, asciiAduChars, hbody, List.map_cons, map_upperHex_of_bytesOfHex hb]
        rfl
      next => cases h
    next => cases h

/-- Settles O2: each decoder's operand forms are those of the encoder, and the PDUs and ADUs are checked after them. -/
theorem everyMessageIsItsInstructionsEncoding : Obligations.EveryMessageIsItsInstructionsEncoding := by
  intro p m i h
  have spelled {p : Port} (hs : i.Spells p m) (hp : p ≠ .ascLine) :
      i.wf = true ∧ portOf i = p ∧ (p ≠ .ascLine → encode i = m) ∧ (p = .ascLine → encode i = m.map Machine.upperHex) :=
    ⟨hs.wf, hs.port, fun _ => hs.encode, fun h => absurd h hp⟩
  unfold decode at h
  split at h
  · exact spelled (spells_of_decodeFramer h) (by decide)
  · exact spelled (spells_of_decodeFramer h) (by decide)
  · exact spelled (spells_of_decodeMaster h) (by decide)
  · obtain ⟨hd, hi⟩ := checked_eq_some.1 h
    obtain ⟨hp, he⟩ := encode_of_requestFields hd
    exact spelled ⟨hi, hp, he⟩ (by decide)
  · obtain ⟨hd, hi⟩ := checked_eq_some.1 h
    obtain ⟨hp, he⟩ := encode_of_replyFields hd
    exact spelled ⟨hi, hp, he⟩ (by decide)
  · obtain ⟨hd, hi⟩ := checked_eq_some.1 h
    obtain ⟨hp, he⟩ := encode_of_rtuAduFields hd
    exact spelled ⟨hi, hp, he⟩ (by decide)
  · obtain ⟨hd, hi⟩ := checked_eq_some.1 h
    obtain ⟨hp, he⟩ := encode_of_asciiAduFields hd
    exact ⟨hi, hp, fun h => absurd rfl h, fun _ => he⟩
  all_goals cases h

/-! ### Every encoding decodes -/

/-- The host commands (rule R170). -/
theorem decode_encode_command : ∀ i : Instr, i.wf = true → portOf i = .rtu ∨ portOf i = .asc ∨ portOf i = .mst →
    decode (portOf i) (encode i) = some i
  | .rtuReset, _, _ | .rtuPoll, _, _ | .rtuBeginSend, _, _ | .rtuSend, _, _ | .rtuFinished, _, _
  | .ascReset, _, _ | .ascPoll, _, _ | .ascBeginSend, _, _ | .ascSend, _, _ | .ascFinished, _, _
  | .mReset, _, _ | .mPoll, _, _ | .mAckError, _, _ | .mReadStatus, _, _
  | .rtuSetStationAddress _, _, _ | .ascSetStationAddress _, _, _ => rfl
  | .rtuSetup a b c, _, _ => operands32x3_eq_some.2 ⟨a, b, c, rfl, rfl⟩
  | .ascSetTimeout v, _, _ | .mSetResponseTimeout v, _, _ | .mSetTurnaround v, _, _ =>
      operands32_eq_some.2 ⟨v, rfl, rfl⟩
  | .readStatus .rtu, _, _ | .readStatus .ascii, _, _ => rfl
  | .bufRead .rtu v, _, _ | .bufRead .ascii v, _, _ => operands16_eq_some.2 ⟨v, rfl, rfl⟩
  | .bufWrite .rtu v b, _, _ | .bufWrite .ascii v b, _, _ => operands16x8_eq_some.2 ⟨v, b, rfl, rfl⟩
  | .setFrame .rtu b v, _, _ | .setFrame .ascii b v, _, _ => operands8x16_eq_some.2 ⟨b, v, rfl, rfl⟩
  | .readCoils s a c, _, _ | .readDiscreteInputs s a c, _, _ | .readHoldingRegisters s a c, _, _
  | .readInputRegisters s a c, _, _ | .writeSingleRegister s a c, _, _ =>
      operands8x16x16_eq_some.2 ⟨s, a, c, rfl, rfl⟩
  | .writeSingleCoil s a v, h, _ => operandsCoil_eq_some.2 ⟨s, a, v, by simpa [Instr.wf] using h, rfl, rfl⟩
  | .writeMultipleCoils s a c bits, h, _ =>
      operandsCoils_eq_some.2 ⟨s, a, c, bits, by simpa [Instr.wf] using h, rfl, rfl⟩
  | .writeMultipleRegisters s a c values, h, _ =>
      operandsRegisters_eq_some.2 ⟨s, a, c, values, by simpa [Instr.wf] using h, rfl, rfl⟩
  | .readWriteMultipleRegisters s ra rc wa wc values, h, _ =>
      operandsReadWrite_eq_some.2 ⟨s, ra, rc, wa, wc, values, by simpa [Instr.wf] using h, rfl, rfl⟩

/-- The fields of a request PDU read back (rule R148). -/
theorem requestFields_of_encode : ∀ i : Instr, portOf i = .request →
    ∃ fc args, encode i = fc :: args ∧ requestFields fc args = some i
  | .pduReqReadCoils a v, _ | .pduReqReadDiscreteInputs a v, _ | .pduReqReadHoldingRegisters a v, _
  | .pduReqReadInputRegisters a v, _ | .pduReqWriteSingleCoil a v, _ | .pduReqWriteSingleRegister a v, _ =>
      ⟨_, _, rfl, fieldsWords_eq_some.2 ⟨a, v, rfl, rfl⟩⟩
  | .pduReqWriteMultipleCoils .., _ => ⟨_, _, rfl, by simp [requestFields]⟩
  | .pduReqWriteMultipleRegisters .., _ | .pduReqReadWriteMultipleRegisters .., _ =>
      ⟨_, _, rfl, by simp [requestFields, fieldsValues]⟩

theorem exceptionByte_toNat (fc : BitVec 7) : 128 ≤ (1#1 ++ fc : Byte).toNat := by revert fc; decide +kernel

theorem extract_exceptionByte (fc : BitVec 7) : (1#1 ++ fc : Byte).extractLsb' 0 7 = fc := by
  revert fc; decide +kernel

/-- The fields of a reply PDU read back (rules R149, R150, R469). -/
theorem replyFields_of_encode : ∀ i : Instr, i.wf = true → portOf i = .reply →
    ∃ fc args, encode i = fc :: args ∧ replyFields fc args = some i
  | .pduRspReadCoils .., _, _ | .pduRspReadDiscreteInputs .., _, _ => ⟨_, _, rfl, rfl⟩
  | .pduRspReadHoldingRegisters _ ws, _, _ | .pduRspReadInputRegisters _ ws, _, _
  | .pduRspReadWriteMultipleRegisters _ ws, _, _ => ⟨_, _, rfl, fieldsValues_eq_some.2 ⟨ws, rfl, rfl⟩⟩
  | .pduRspWriteSingleCoil a v, _, _ | .pduRspWriteSingleRegister a v, _, _ | .pduRspWriteMultipleCoils a v, _, _
  | .pduRspWriteMultipleRegisters a v, _, _ => ⟨_, _, rfl, fieldsWords_eq_some.2 ⟨a, v, rfl, rfl⟩⟩
  | .pduRspException fc code, _, _ =>
      ⟨_, _, rfl, by rw [replyFields, if_pos (exceptionByte_toNat fc), extract_exceptionByte]; rfl⟩
  | .pduRspOther fc data, h, _ => by
      simp only [Instr.wf, supportedFunction, Bool.and_eq_true, decide_eq_true_eq, Bool.not_eq_true', Bool.or_eq_false_iff,
        beq_eq_false_iff_ne] at h
      exact ⟨_, _, rfl, by simp [replyFields, h, Nat.not_le.2 h.1.1]⟩

/-- The ADUs (rules R140, R143). -/
theorem decode_encode_adu : ∀ i : Instr, i.wf = true → portOf i = .rtuLine ∨ portOf i = .ascLine →
    decode (portOf i) (encode i) = some i
  | .rtuAdu .., hi, _ => checked_eq_some.2 ⟨by simp [rtuAduFields, encode, rtuAduBytes], hi⟩
  | .asciiAdu .., hi, _ => checked_eq_some.2 ⟨by simp [asciiAduFields, encode, asciiAduChars], hi⟩

/-- Settles O1: the operand forms read back what the encoder writes, and so do the fields of the PDUs and of the ADUs. -/
theorem everyInstructionDecodesBack : Obligations.EveryInstructionDecodesBack := by
  intro i hi
  cases hp : portOf i with
  | rtu | asc | mst => exact hp ▸ decode_encode_command i hi (by simp [hp])
  | request =>
    obtain ⟨fc, args, he, hd⟩ := requestFields_of_encode i hp
    rw [he]
    exact checked_eq_some.2 ⟨hd, hi⟩
  | reply =>
    obtain ⟨fc, args, he, hd⟩ := replyFields_of_encode i hi hp
    rw [he]
    exact checked_eq_some.2 ⟨hd, hi⟩
  | rtuLine | ascLine => exact hp ▸ decode_encode_adu i hi (by simp [hp])

end Sys2Proof
end

section
/-! PROOFS. A word of the opcode table as an instruction (rules R170, R185), the messages written out in the spec, the hex
characters (rules R145, R154) and READ_STATUS (rule R172). -/

namespace Sys2Proof.Machine

/-! ### Words of the opcode table -/

/-- A word finds a port's message, and the instruction that the port's decoder reads in it. -/
theorem decode_of_fetchWord {nbits w : Nat} {p : Port} {m : List Byte} {i : Instr}
    (h : fetchWord nbits w = some (p, m, i)) : decode p m = some i := by
  obtain ⟨q, -, hq⟩ := List.exists_of_findSome?_eq_some h
  obtain ⟨k, -, hk⟩ := List.exists_of_findSome?_eq_some hq
  obtain ⟨j, hj, e⟩ := Option.map_eq_some_iff.1 hk
  cases e
  exact hj

/-- Settles O6: the message that `withFetchWord` issues is the one whose decoding `decodeTableWord` answers. -/
theorem tableWordRunsAsItsInstruction : Obligations.TableWordRunsAsItsInstruction := by
  intro nbits w i s h
  obtain ⟨⟨p, m, j⟩, hf, rfl⟩ := Option.map_eq_some_iff.1 h
  have hr : wordRequest s.inputs nbits w = ⟨p, m, s.inputs⟩ := by rw [wordRequest, hf]
  have hs : (s.withFetchWord nbits w).pending = ⟨p, m, s.inputs⟩ :: s.pending := by
    rw [State.withFetchWord_pending, hr]
  exact step_of_decode hs (decode_of_fetchWord hf)

/-! ### Written-out messages and characters -/

/-- Settles O3: each message is decoded. -/
theorem specWordsDecode : Obligations.SpecWordsDecode := by
  unfold Obligations.SpecWordsDecode
  decide +kernel

theorem hexchar_toNat (v : BitVec 4) :
    (hexchar v).toNat = if v.toNat ≤ 9 then 0x30 + v.toNat else 0x41 + v.toNat - 10 := by
  revert v; decide

theorem map_toNat_hexval (c : Byte) : (hexval c).map BitVec.toNat =
    if 0x30 ≤ c.toNat ∧ c.toNat ≤ 0x39 then some (c.toNat - 0x30)
    else if 0x41 ≤ c.toNat ∧ c.toNat ≤ 0x46 then some (c.toNat - 0x41 + 10)
    else if 0x61 ≤ c.toNat ∧ c.toNat ≤ 0x66 then some (c.toNat - 0x61 + 10) else none := by
  revert c; decide +kernel

theorem byteOfNibbles_toNat (h l : BitVec 4) : (byteOfNibbles h l).toNat = h.toNat * 16 + l.toNat := by
  rw [byteOfNibbles, BitVec.toNat_append, ← Nat.shiftLeft_add_eq_or_of_lt l.isLt, Nat.shiftLeft_eq]

/-- Settles O18: the values of `hexchar`, `hexval` and `byteOfNibbles`; `hexOf` is the two characters by definition. -/
theorem hexCharacters : Obligations.HexCharacters :=
  ⟨hexchar_toNat, fun _ => rfl, map_toNat_hexval, byteOfNibbles_toNat⟩

/-! ### READ_STATUS -/

/-- READ_STATUS answers the framer's record and changes nothing else. -/
theorem exec_readStatus {s : State} (hf : s.fault = none) (u : FramerKind) :
    exec (.readStatus u) s = .next (s.answer (.status (s.statusRecord u))) := by
  have h : s.command (fun s => s.answer (.status (s.statusRecord u))) = s.answer (.status (s.statusRecord u)) :=
    (State.command_of_ok _ hf).trans (by cases u <;> rfl)
  exact congrArg Host.Outcome.next h

/-- Settles O28: the record of each framer, and the codes in the order of the tables. -/
theorem readStatusCommands : Obligations.ReadStatusCommands := fun _ hf =>
  ⟨exec_readStatus hf .rtu, exec_readStatus hf .ascii, by decide, by decide⟩

end Sys2Proof.Machine
end

section
/-! PROOFS. The checks on operands: the CRC as an injective bit loop (rules R140 to R142), the LRC as a sum (rule R144), and
the unused bits of coil data (rules R152, R436). -/

namespace Sys2Proof.Machine

/-! ### CRC -/

/-- A turn of the bit loop is linear. -/
theorem crcBit_xor (x y : Word16) : crcBit (x ^^^ y) = crcBit x ^^^ crcBit y := by
  cases hx : x.getLsbD 0 <;> cases hy : y.getLsbD 0 <;>
    simp only [crcBit, BitVec.getLsbD_xor, hx, hy, BitVec.ushiftRight_xor_distrib, Bool.xor_false, Bool.xor_true,
      Bool.not_true, Bool.not_false, if_true, Bool.false_eq_true, if_false]
  · ac_rfl
  · ac_rfl
  · rw [show ∀ u v w : Word16, (u ^^^ w) ^^^ (v ^^^ w) = (u ^^^ v) ^^^ (w ^^^ w) by intros; ac_rfl, BitVec.xor_self,
      BitVec.xor_zero]

/-- Only 0 goes to 0: the polynomial has its top bit set, and a shift clears that bit. -/
theorem eq_zero_of_crcBit {x : Word16} (h : crcBit x = 0#16) : x = 0#16 := by
  have hx := x.isLt
  have hlow : x.getLsbD 0 = decide (x.toNat % 2 = 1) := by
    simp [BitVec.getLsbD, Nat.testBit_zero]
  have hhalf : (x >>> 1).toNat = x.toNat / 2 := by simp [Nat.shiftRight_eq_div_pow]
  unfold crcBit at h
  split at h
  next =>
    have : (x >>> 1).toNat = 0xA001 := by rw [BitVec.xor_eq_zero_iff.1 h]; rfl
    omega
  next hodd =>
    have hz : (x >>> 1).toNat = 0 := by rw [h]; rfl
    rw [hlow, decide_eq_true_eq] at hodd
    exact BitVec.eq_of_toNat_eq (show x.toNat = 0 by omega)

theorem crcBit_injective : Function.Injective crcBit := by
  intro x y h
  exact BitVec.xor_eq_zero_iff.1 (eq_zero_of_crcBit (by rw [crcBit_xor, h, BitVec.xor_self]))

/-- The eight turns for one byte (rule R141). -/
theorem crcUpdate_eq_iterate (c : Word16) (b : Byte) : crcUpdate c b = crcBit^[8] (c ^^^ b.setWidth 16) := rfl

theorem crcUpdate_eq_iff {c d : Word16} {a b : Byte} :
    crcUpdate c a = crcUpdate d b ↔ c ^^^ a.setWidth 16 = d ^^^ b.setWidth 16 :=
  (crcBit_injective.iterate 8).eq_iff

theorem crcUpdate_left_injective (b : Byte) : Function.Injective (crcUpdate · b) := fun _ _ h =>
  (BitVec.xor_left_inj _).1 (crcUpdate_eq_iff.1 h)

theorem crcUpdate_right_injective (c : Word16) : Function.Injective (crcUpdate c) := by
  intro a b h
  have hw : a.setWidth 16 = b.setWidth 16 := (BitVec.xor_right_inj _).1 (crcUpdate_eq_iff.1 h)
  simpa using congrArg (BitVec.setWidth 8) hw

/-- Eight turns move a byte from the high half to the low half. -/
theorem crcUpdate_highByte (b : Byte) : crcUpdate (be16 b 0#8) 0#8 = b.setWidth 16 := by
  revert b; decide +kernel

/-- A big-endian field and its low byte. -/
theorem be16_xor_low (h l : Byte) : be16 h l ^^^ l.setWidth 16 = be16 h 0#8 := by
  have hw : l.setWidth 16 = 0#8 ++ l := BitVec.setWidth_eq_append (by decide)
  rw [be16, be16, hw, BitVec.xor_append, BitVec.xor_zero, BitVec.xor_self]

/-- Two bytes after a CRC give 0x0000 exactly when they are that CRC, low byte first (rule R142). -/
theorem crcUpdate_crcUpdate_eq_zero {c : Word16} {lo hi : Byte} :
    crcUpdate (crcUpdate c lo) hi = 0#16 ↔ c = be16 hi lo := by
  have hz : crcUpdate (hi.setWidth 16) hi = 0#16 := by
    rw [crcUpdate_eq_iterate, BitVec.xor_self]; rfl
  calc crcUpdate (crcUpdate c lo) hi = 0#16
      ↔ crcUpdate c lo = hi.setWidth 16 := by rw [← hz, (crcUpdate_left_injective hi).eq_iff]
    _ ↔ c ^^^ lo.setWidth 16 = be16 hi 0#8 := by
        rw [← crcUpdate_highByte, crcUpdate_eq_iff]; simp
    _ ↔ c = be16 hi lo := by rw [← be16_xor_low hi lo, BitVec.xor_left_inj]

theorem crc16_two_more (s : List Byte) (lo hi : Byte) :
    crc16 (s ++ [lo, hi]) = crcUpdate (crcUpdate (crc16 s) lo) hi := by simp [crc16_append]

/-- The residue of a frame (rule R142). -/
theorem crc16_residue {s : List Byte} {lo hi : Byte} : crc16 (s ++ [lo, hi]) = 0#16 ↔ crc16 s = be16 hi lo := by
  rw [crc16_two_more, crcUpdate_crcUpdate_eq_zero]

/-- Settles O15: a byte's eight turns are injective and move a byte down, so only the CRC itself cancels. -/
theorem crcResidue : Obligations.CrcResidue := fun _ _ =>
  ⟨crc16_residue.2 (be16_hi8_lo8 _).symm, fun _ _ => crc16_residue⟩

/-- Bytes that follow keep two CRCs apart. -/
theorem foldl_crcUpdate_injective : ∀ s : List Byte, Function.Injective (s.foldl crcUpdate)
  | [] => fun _ _ h => h
  | b :: s => (foldl_crcUpdate_injective s).comp (crcUpdate_left_injective b)

/-- A change of one byte changes the CRC. -/
theorem crc16_modify_ne {f : Byte → Byte} (hf : ∀ b, f b ≠ b) (s : List Byte) {k : Nat} (hk : k < s.length) :
    crc16 (s.modify k f) ≠ crc16 s := by
  intro h
  rw [List.modify_eq_take_cons_drop hk] at h
  conv_rhs at h => rw [← List.take_append_drop k s, ← List.getElem_cons_drop hk]
  rw [crc16_append, crc16_append] at h
  exact hf _ (crcUpdate_right_injective _ (foldl_crcUpdate_injective _ h))

theorem xor_oneBit_ne (b : Byte) {j : Nat} (hj : j < 8) : b ^^^ (1#8 <<< j) ≠ b := by
  have hbit : (1#8 <<< j : Byte) ≠ 0#8 := by
    interval_cases j <;> decide
  simpa using hbit

/-- Settles O16: an ADU's residue is 0x0000, and a change of one byte changes it. -/
theorem singleBitErrorsAreDetected : Obligations.SingleBitErrorsAreDetected := by
  intro a p k j hk hj h
  have hresidue : crc16 (rtuAduOf a p) = 0#16 := (crcResidue a p).1
  exact crc16_modify_ne (fun b => xor_oneBit_ne b hj) _ hk (h.trans hresidue.symm)

/-! ### LRC -/

theorem byteSum_toNat (s : List Byte) : (byteSum s).toNat = (s.map BitVec.toNat).sum % 256 := by
  induction s using List.reverseRecOn with
  | nil => rfl
  | append_singleton s b ih => simp [BitVec.toNat_add, ih]

/-- Settles O17: both clauses are the sum of bytes as a number modulo 256. -/
theorem lrcRule : Obligations.LrcRule := by
  intro a p
  have hs := byteSum_toNat (a :: p)
  have hlrc : (lrcOf a p).toNat = (256 - ((a :: p).map BitVec.toNat).sum % 256) % 256 := by
    simp [lrcOf, hs]
  refine ⟨hlrc, fun l => ?_⟩
  rw [← BitVec.toNat_inj, hlrc]
  have := l.isLt
  omega

/-! ### Coil data -/

/-- Only the last byte is masked. -/
theorem getElem?_clearUnusedBits (count : Nat) : ∀ (bits : List Byte) (i : Nat),
    (clearUnusedBits count bits)[i]? = if i + 1 = bits.length then bits[i]?.map (· &&& lastCoilMask count) else bits[i]?
  | [], i => by simp [clearUnusedBits]
  | [b], 0 => rfl
  | [b], i + 1 => by simp [clearUnusedBits]
  | b :: c :: bits, 0 => by simp [clearUnusedBits]
  | b :: c :: bits, i + 1 => by
    simpa [clearUnusedBits] using getElem?_clearUnusedBits count (c :: bits) i

/-- The mask keeps the coils of the last byte (rule R152). -/
theorem getLsbD_lastCoilMask (count : Nat) {k : Nat} (hk : k < 8) :
    (lastCoilMask count).getLsbD k = decide (count % 8 = 0 ∨ k < count % 8) := by
  have hr : count % 8 < 8 := Nat.mod_lt _ (by decide)
  rw [lastCoilMask]
  generalize count % 8 = r at hr
  interval_cases r <;> interval_cases k <;> decide

/-- Settles O19: the coils of the count are all those below the last byte and those that its mask keeps. -/
theorem unusedCoilBitsAreCleared : Obligations.UnusedCoilBitsAreCleared := by
  intro count bits hlen
  refine ⟨length_clearUnusedBits _ _, fun j hj => ?_⟩
  have hi : j / 8 < bits.length := by omega
  rw [getElem?_clearUnusedBits, List.getElem?_eq_getElem hi]
  split
  next hlast =>
    have hcoil : (count.toNat % 8 = 0 ∨ j % 8 < count.toNat % 8) ↔ j < count.toNat := by omega
    by_cases hc : j < count.toNat <;>
      simp [getLsbD_lastCoilMask _ (Nat.mod_lt j (by decide : 0 < 8)), hcoil, hc]
  next hlast => rw [if_pos (by omega)]

end Sys2Proof.Machine
end

section
/-! PROOFS. The frame-ready step of the master engine in closed form, on either framer (rules R450 to R455). -/

namespace Sys2Proof.Machine

/-- Framer `u` back in `idle` with an empty buffer, `ev` recorded and the master engine at `m`. -/
def State.released (u : FramerKind) (ev : List Event) (m : Master) (s : State) : State :=
  match u with
  | .rtu => { s with rtu := { s.rtu with st := .idle, bufferLen := 0 }, events := s.events ++ ev, mst := m }
  | .ascii => { s with asc := { s.asc with st := .idle, bufferLen := 0 }, events := s.events ++ ev, mst := m }

@[simp] theorem State.released_fault (u : FramerKind) (ev : List Event) (m : Master) (s : State) :
    (s.released u ev m).fault = s.fault := by cases u <;> rfl

/-- A framer in `frame_ready` that has had its SETUP, where it needs one. -/
structure State.Ready (u : FramerKind) (s : State) : Prop where
  fault : s.fault = none
  configured : s.configured u = true
  st : s.frameReadyOut u = true

/-- FINISHED releases a framer in `frame_ready` (rules R238, R324). -/
theorem State.Ready.framerFinished_eq {u : FramerKind} {s : State} (h : s.Ready u) :
    framerFinished u s = s.released u [] s.mst := by
  obtain ⟨-, hc, hst⟩ := h
  cases u with
  | rtu =>
    have hst : s.rtu.st = .frameReady := by simpa [State.frameReadyOut] using hst
    have hc : s.rtu.configured = true := hc
    simp [framerFinished, rtuFinished, State.released, hst, hc, RtuSt.abandonable]
  | ascii =>
    have hst : s.asc.st = .frameReady := by simpa [State.frameReadyOut] using hst
    simp [framerFinished, ascFinished, State.released, hst, AscSt.abandonable]

/-- What FINISHED looks at is not changed by the events and the engine's registers. -/
theorem State.Ready.with_events {u : FramerKind} {s : State} (h : s.Ready u) (ev : List Event) (m : Master) :
    State.Ready u { s with events := ev, mst := m } := by
  obtain ⟨hf, hc, hst⟩ := h
  cases u <;> exact ⟨hf, hc, hst⟩

/-- FINISHED after events and writes of the engine. -/
theorem State.Ready.framerFinished_with {u : FramerKind} {s : State} (h : s.Ready u) (ev : List Event) (m : Master) :
    framerFinished u { s with events := s.events ++ ev, mst := m } = s.released u ev m := by
  rw [(h.with_events _ m).framerFinished_eq]
  cases u <;> simp [State.released]

/-- The frame-ready step on a framer that holds the PDU `p` (rules R450 to R455): what `frameTaken` says. -/
theorem State.Ready.frameReadyStep_eq {u : FramerKind} {s : State} {env : Inputs} {p : List Byte} (h : s.Ready u)
    (hp : (s.buf u).readRange 0 (s.bufferLen u) = some p) (hv : env.verdict = s.inputs.verdict) :
    frameReadyStep u env s =
      s.released u (s.frameTaken (s.frameAddress u) p (nowTick s.cfg env)).1
        (s.frameTaken (s.frameAddress u) p (nowTick s.cfg env)).2 := by
  have hlen : s.bufferLen u = 0 ↔ p = [] := by
    rw [← Memory.length_of_readRange _ _ _ _ hp, List.length_eq_zero_iff]
  rw [frameReadyStep, State.frameTaken]
  by_cases hn : p = [] ∨ s.mst.st ≠ .waitingForReply
  · rw [if_pos (hn.imp_left hlen.2), if_pos hn]
    exact h.framerFinished_with [.unsolicited] s.mst
  rw [if_neg (fun h => hn (h.imp_left hlen.1)), if_neg hn]
  by_cases ha : s.frameAddress u ≠ s.mst.slave
  · rw [if_pos ha, if_pos ha]
    exact h.framerFinished_with [.stale] _
  rw [if_neg ha, if_neg ha, processReply]
  have hbuf : ((s.setMstSt .processingReply).buf u).readRange 0 ((s.setMstSt .processingReply).bufferLen u) = some p := by
    cases u <;> exact hp
  have hdec : decodeReply (s.setMstSt .processingReply).mst p = decodeReply s.mst p := rfl
  simp only [hbuf, hdec]
  cases decodeReply s.mst p with
  | none =>
    have hfin : framerFinished u ((s.setMstSt .processingReply).emit .malformed) = _ :=
      h.framerFinished_with [.malformed] { s.mst with st := .processingReply }
    simp only [rejectReply, hfin]
    rw [State.andThen_of_ok _ (by simpa using h.fault)]
    cases u <;> rfl
  | some r =>
    have hemit : ((s.setMstSt .processingReply).emit r).drawVerdict env =
        { s with events := s.events ++ [r, .verdict s.inputs.verdict], mst := { s.mst with st := .processingReply } } := by
      simp [State.drawVerdict, State.emit, State.setMstSt, hv]
    simp only [deliver, hemit, h.framerFinished_with]
    rw [State.andThen_of_ok _ (by simpa using h.fault), verdictSt, hv]
    cases u <;> rfl

end Sys2Proof.Machine
end

section
/-! PROOFS. A whole RTU frame on the line (rules R140, R216, R217, R220 to R222, R227): the POLL that reads its bytes, one
byte at a time, and the POLL after the silence. -/

namespace Sys2Proof.Machine

/-- A list written, and one byte after it. -/
theorem Memory.writeList_concat : ∀ (vs : List Byte) (m : Memory) (i : Nat) (v : Byte),
    m.writeList i (vs ++ [v]) = (m.writeList i vs).write (i + vs.length) v
  | [], _, _, _ => rfl
  | w :: vs, m, i, v => by
    simp only [List.cons_append, Memory.writeList, Memory.writeList_concat vs, List.length_cons]
    congr 1
    omega

/-! ### The bytes of a frame -/

/-- The RTU framer has read, at tick `t`, the address `a`, the bytes `p`, which are in its buffer, and the two bytes that
its delay line holds (rules R210, R216, R217). -/
def State.rtuReceived (t : Nat) (a : Byte) (p : List Byte) (lo hi : Byte) (s : State) : State :=
  { s with rtu := { s.rtu with st := .receive, frameAddress := a, bufferLen := p.length, crc := crc16 (a :: p ++ [lo, hi])
                               rxCount := p.length + 3, hold0 := lo, hold1 := hi, holdN := 2, last := t
                               buf := s.rtu.buf.writeList 0 p } }

/-- No threshold is exceeded at once (rule R217). -/
theorem exceeded_zero (t : Option Nat) : exceeded t 0 = false := by cases t <;> simp [exceeded]

/-- A drain that ends without a read error stops where its bytes end. -/
theorem rtuDrain_append {env : Inputs} (he : env.rxError = false) (bs : List Byte) : ∀ (as : List Byte) (s : State),
    s.fault = none → rtuDrain env (as ++ bs) s = (rtuDrain env as s).andThen (rtuDrain env bs)
  | [], s, hf => by simp [rtuDrain, he, hf]
  | a :: as, s, hf => by
    rw [List.cons_append, rtuDrain, rtuDrain]
    obtain ⟨r, hr, e⟩ | ⟨hn, e⟩ := State.andThen_cases (rtuOnByte env a s) (rtuDrain env (as ++ bs))
    · rw [e, State.andThen_of_fault _ hr, State.andThen_of_fault _ hr]
    · rw [e, State.andThen_of_ok _ hn, rtuDrain_append he bs as _ hn]

section Bytes

variable {env : Inputs} {s : State}

/-- Three bytes fill the delay line (rules R216, R217). -/
theorem rtuDrain_threeBytes (he : env.rxError = false) (hf : s.fault = none) (hst : s.rtu.st = .idle) (a lo hi : Byte) :
    rtuDrain env [a, lo, hi] s = s.rtuReceived (nowTick s.cfg env) a [] lo hi := by
  simp [rtuDrain, rtuOnByte, rtuStartFrame, rtuReceiveByte, rtuCountByte, rtuElapsed, exceeded_zero, hst, hf, he,
    State.rtuReceived, crc16, Memory.writeList]

/-- One more byte moves the delay line, while the buffer has room (rule R217). -/
theorem rtuOnByte_received (hf : s.fault = none) (a b lo hi : Byte) {p : List Byte} (hp : p.length < cap s.cfg) :
    rtuOnByte env b (s.rtuReceived (nowTick s.cfg env) a p lo hi) =
      s.rtuReceived (nowTick s.cfg env) a (p ++ [lo]) hi b := by
  have hroom : p.length < s.cfg.bufferMax := hp.trans_le (cap_le s.cfg).1
  have hcrc : crcUpdate (crc16 (a :: (p ++ [lo, hi]))) b = crc16 (a :: (p ++ [lo, hi, b])) := by
    rw [← crc16_concat]; simp
  simp [rtuOnByte, rtuReceiveByte, rtuCommit, rtuCountByte, rtuElapsed, exceeded_zero, State.rtuReceived, State.bufWrite,
    State.buf, hroom, hp.ne, hf, Memory.writeList_concat, hcrc]

/-- A frame whose PDU fits is read whole. -/
theorem rtuDrain_frame (he : env.rxError = false) (hf : s.fault = none) (hst : s.rtu.st = .idle) (a : Byte)
    (p : List Byte) : ∀ lo hi : Byte, p.length ≤ cap s.cfg →
    rtuDrain env (rtuAduBytes a p lo hi) s = s.rtuReceived (nowTick s.cfg env) a p lo hi := by
  induction p using List.reverseRecOn with
  | nil => exact fun lo hi _ => rtuDrain_threeBytes he hf hst a lo hi
  | append_singleton p x ih =>
    intro lo hi hp
    rw [List.length_append, List.length_singleton] at hp
    have hsplit : rtuAduBytes a (p ++ [x]) lo hi = rtuAduBytes a p x lo ++ [hi] := by simp [rtuAduBytes]
    have hread (q : List Byte) (y z : Byte) : (s.rtuReceived (nowTick s.cfg env) a q y z).fault = none := hf
    rw [hsplit, rtuDrain_append he _ _ _ hf, ih x lo (by omega), State.andThen_of_ok _ (hread ..), rtuDrain,
      rtuOnByte_received hf a hi x lo (by omega), State.andThen_of_ok _ (hread ..), rtuDrain, he]
    rfl

/-- After the overflow the framer drops what it reads (rules R218, R227). -/
theorem rtuDrain_dump (he : env.rxError = false) (hf : s.fault = none) (hst : s.rtu.st = .dump)
    (hl : s.rtu.last = nowTick s.cfg env) : ∀ bs : List Byte, rtuDrain env bs s = s
  | [] => by simp [rtuDrain, he]
  | b :: bs => by
    have hstamp : { s with rtu := { s.rtu with last := nowTick s.cfg env } } = s := by rw [← hl]
    have hbyte : rtuOnByte env b s = s := by
      dsimp only [rtuOnByte]
      rw [hstamp, hst]
    rw [rtuDrain, hbyte, State.andThen_of_ok _ hf, rtuDrain_dump he hf hst hl bs]

/-- A frame whose PDU does not fit: its first CAP bytes are in the buffer, and the byte after them is the overflow
(rule R227). -/
theorem rtuDrain_overflow (he : env.rxError = false) (hf : s.fault = none) (hst : s.rtu.st = .idle) (a lo hi : Byte)
    {p : List Byte} (hp : cap s.cfg < p.length) :
    ∃ q x y, q.length = cap s.cfg ∧ rtuDrain env (rtuAduBytes a p lo hi) s =
      rtuDump .overflow (s.rtuReceived (nowTick s.cfg env) a q x y) := by
  obtain ⟨q, x, y, b, rest, hq, hsplit⟩ : ∃ q x y b rest, q.length = cap s.cfg ∧
      rtuAduBytes a p lo hi = rtuAduBytes a q x y ++ b :: rest := by
    obtain ⟨y, b, rest, hy⟩ : ∃ y b rest, p.drop (cap s.cfg + 1) ++ [lo, hi] = y :: b :: rest :=
      match p.drop (cap s.cfg + 1) with
      | [] => ⟨lo, hi, [], rfl⟩
      | [z] => ⟨z, lo, [hi], rfl⟩
      | z :: w :: r => ⟨z, w, r ++ [lo, hi], rfl⟩
    refine ⟨p.take (cap s.cfg), p[cap s.cfg], y, b, rest, List.length_take_of_le hp.le, ?_⟩
    conv_lhs => rw [rtuAduBytes, ← List.take_append_drop (cap s.cfg) p, List.drop_eq_getElem_cons hp]
    simp only [rtuAduBytes, List.cons_append, List.append_assoc, hy, List.nil_append]
  have hread (q : List Byte) (y z : Byte) : (s.rtuReceived (nowTick s.cfg env) a q y z).fault = none := hf
  refine ⟨q, x, y, hq, ?_⟩
  rw [hsplit, rtuDrain_append he _ _ _ hf, rtuDrain_frame he hf hst a q x y hq.le,
    State.andThen_of_ok _ (hread ..), rtuDrain]
  have hbyte : rtuOnByte env b (s.rtuReceived (nowTick s.cfg env) a q x y) =
      rtuDump .overflow (s.rtuReceived (nowTick s.cfg env) a q x y) := by
    simp [rtuOnByte, rtuReceiveByte, rtuElapsed, exceeded_zero, State.rtuReceived, hq]
  rw [hbyte, State.andThen_of_ok _ (by exact hf)]
  refine rtuDrain_dump he ?_ ?_ ?_ rest
  · exact hf
  · rfl
  · rfl

end Bytes

/-! ### The two POLLs -/

section Polls

variable {env : Inputs} {s t : State}

/-- A framer that does not transmit does nothing in the transmit phase (rule R211). -/
theorem rtuTransmitPhase_of_not (h : t.rtu.st.transmitting = false) : rtuTransmitPhase env t = t := by
  rw [rtuTransmitPhase, h, if_neg Bool.false_ne_true]

/-- A POLL that leaves the framer, after its timers and its drain, in a state that does not transmit. -/
theorem rtuPoll_of_drained (hc : s.rtu.configured = true) (hx : s.rtu.st ≠ .exception)
    (hp : (rtuPollTimers env s).fault = none) (hd : rtuDrain env env.rx (rtuPollTimers env s) = t) (hf : t.fault = none)
    (hst : t.rtu.st.transmitting = false) : rtuPoll env s = t.answer (.ticks (rtuDeadline env t)) := by
  rw [rtuPoll, if_pos hc, if_neg hx, State.andThen_of_ok _ hp, hd, State.andThen_of_ok _ hf,
    rtuTransmitPhase_of_not hst, State.andThen_of_ok _ hf]

/-- The timers leave `idle` alone (rule R212). -/
theorem rtuPollTimers_idle (hst : s.rtu.st = .idle) : rtuPollTimers env s = s := by
  simp [rtuPollTimers, hst]

/-- The POLL that reads `bytes` in `idle`. -/
theorem rtuPoll_reading {bytes : List Byte} (hf : s.fault = none) (hc : s.rtu.configured = true)
    (hst : s.rtu.st = .idle) (hd : rtuDrain (env.reading bytes) bytes s = t) (hft : t.fault = none)
    (ht : t.rtu.st.transmitting = false) : ∃ r, rtuPoll (env.reading bytes) s = t.answer r := by
  have hp : rtuPollTimers (env.reading bytes) s = s := rtuPollTimers_idle hst
  exact ⟨_, rtuPoll_of_drained hc (by rw [hst]; decide) (by rwa [hp]) (by rwa [hp]) hft ht⟩

/-- The POLL after the silence, where its timers leave the framer in `idle` or `frame_ready`. -/
theorem rtuPoll_afterSilence {t35 : Nat} (hc : s.rtu.configured = true) (hx : s.rtu.st ≠ .exception)
    (hp : rtuPollTimers (env.afterSilence t35) s = t) (hf : t.fault = none)
    (hst : t.rtu.st = .idle ∨ t.rtu.st = .frameReady) :
    rtuPoll (env.afterSilence t35) s = t.answer (.ticks 0) := by
  have hno : t.rtu.st.transmitting = false := by obtain e | e := hst <;> rw [e] <;> rfl
  have hzero : rtuDeadline (env.afterSilence t35) t = 0 := by obtain e | e := hst <;> simp [rtuDeadline, e]
  have hd : rtuDrain (env.afterSilence t35) (env.afterSilence t35).rx t = t := by simp [rtuDrain, Inputs.afterSilence]
  rw [rtuPoll_of_drained hc hx (by rwa [hp]) (by rwa [hp]) hf hno, hzero]

/-- T3.5 after the last byte the silence has elapsed (rules R209, R212). -/
theorem reached_afterSilence {t35 : Nat} (ht : s.rtu.t35 = some t35) (hlt : t35 < tickModulus s.cfg)
    (hl : s.rtu.last = nowTick s.cfg env) : reached s.rtu.t35 (rtuElapsed (env.afterSilence t35) s) = true := by
  have he : rtuElapsed (env.afterSilence t35) s = t35 := by
    have hmod : rtuElapsed (env.afterSilence t35) s = tickDiff s.cfg (env.now + t35) env.now := by
      simp [rtuElapsed, hl, nowTick, Inputs.afterSilence, tickDiff]
    rw [hmod, tickDiff_add_left env.now hlt]
  simp [reached, ht, he]

/-- After the silence a frame that arrives ends (rule R212). -/
theorem rtuPollTimers_receive (hr : reached s.rtu.t35 (rtuElapsed env s) = true) (hst : s.rtu.st = .receive) :
    rtuPollTimers env s = rtuFrameEnd env s := by rw [rtuPollTimers, if_pos hr, hst]

/-- After the silence `dump` is left (rule R212). -/
theorem rtuPollTimers_dump (hr : reached s.rtu.t35 (rtuElapsed env s) = true) (hst : s.rtu.st = .dump) :
    rtuPollTimers env s = { s with rtu := { s.rtu with st := .idle } } := by rw [rtuPollTimers, if_pos hr, hst]

/-- A frame on the line (rule R140): its bytes lead to `t`, and the timers from there to `u`. -/
theorem rtuLineFrame_of_timers {u : State} {bytes : List Byte} {t35 : Nat} (hf : s.fault = none)
    (hc : s.rtu.configured = true) (hst : s.rtu.st = .idle) (hd : rtuDrain (env.reading bytes) bytes s = t)
    (htf : t.fault = none) (htc : t.rtu.configured = true) (htst : t.rtu.st = .receive ∨ t.rtu.st = .dump)
    (ht35 : t.rtu.t35 = some t35) (hu : ∀ r, rtuPollTimers (env.afterSilence t35) (t.answer r) = u.answer r)
    (huf : u.fault = none) (hust : u.rtu.st = .idle ∨ u.rtu.st = .frameReady) :
    rtuLineFrame env bytes s = u.answer (.ticks 0) := by
  have hno : t.rtu.st.transmitting = false := by obtain e | e := htst <;> rw [e] <;> rfl
  have hx : t.rtu.st ≠ .exception := by obtain e | e := htst <;> rw [e] <;> decide
  obtain ⟨r, hr⟩ := rtuPoll_reading hf hc hst hd htf hno
  have hsilence : (t.answer r).rtu.t35.getD 0 = t35 := by simp [ht35]
  rw [rtuLineFrame, hr, State.andThen_of_ok _ (by exact htf), hsilence, rtuPoll_afterSilence (s := t.answer r) htc hx (hu r) huf hust]
  rfl

/-- A frame that fits ends in `frame_end()` (rules R212, R221). -/
theorem rtuLineFrame_of_frameEnd {u : State} {a lo hi : Byte} {p : List Byte} {t35 : Nat} (hf : s.fault = none)
    (hc : s.rtu.configured = true) (hst : s.rtu.st = .idle) (ht35 : s.rtu.t35 = some t35)
    (hlt : t35 < tickModulus s.cfg) (hp : p.length ≤ cap s.cfg)
    (hu : ∀ r, rtuFrameEnd (env.afterSilence t35) ((s.rtuReceived (nowTick s.cfg env) a p lo hi).answer r) = u.answer r)
    (huf : u.fault = none) (hust : u.rtu.st = .idle ∨ u.rtu.st = .frameReady) :
    rtuLineFrame env (rtuAduBytes a p lo hi) s = u.answer (.ticks 0) := by
  refine rtuLineFrame_of_timers hf hc hst (rtuDrain_frame rfl hf hst a p lo hi hp) hf hc (.inl rfl) ht35
    (fun r => ?_) huf hust
  have hreached := reached_afterSilence (s := (s.rtuReceived (nowTick s.cfg env) a p lo hi).answer r) ht35 hlt rfl
  exact (rtuPollTimers_receive hreached rfl).trans (hu r)

/-- A frame that does not fit: `dump`, and `idle` after the silence (rules R212, R227). -/
theorem rtuLineFrame_overflow (a lo hi : Byte) {p : List Byte} {t35 : Nat} (hf : s.fault = none)
    (hc : s.rtu.configured = true) (hst : s.rtu.st = .idle) (ht35 : s.rtu.t35 = some t35)
    (hlt : t35 < tickModulus s.cfg) (hp : cap s.cfg < p.length) :
    ∃ q x y, q.length = cap s.cfg ∧ rtuLineFrame env (rtuAduBytes a p lo hi) s =
      ((rtuReject .overflow (s.rtuReceived (nowTick s.cfg env) a q x y)).answer (.ticks 0)) := by
  obtain ⟨q, x, y, hq, hd⟩ := rtuDrain_overflow (env := env.reading (rtuAduBytes a p lo hi)) rfl hf hst a lo hi hp
  refine ⟨q, x, y, hq, rtuLineFrame_of_timers hf hc hst hd hf hc (.inr rfl) ht35 (fun r => ?_) hf (.inl rfl)⟩
  have hreached := reached_afterSilence
    (s := (rtuDump .overflow (s.rtuReceived (nowTick s.cfg env) a q x y)).answer r) ht35 hlt rfl
  exact (rtuPollTimers_dump hreached rfl).trans rfl

end Polls

/-! ### The end of a frame -/

section FrameEnd

variable {env : Inputs} {s : State} {t : Nat} {a lo hi : Byte} {p : List Byte} {res : Result}

/-- A frame received whole that its host is told of (rule R221). -/
def State.rtuHeld (t : Nat) (a : Byte) (p : List Byte) (lo hi : Byte) (s : State) : State :=
  { s with events := s.events ++ [.frameReady .rtu]
           rtu := { (s.rtuReceived t a p lo hi).rtu with st := .frameReady } }

/-- `frame_end()` on a frame received whole: length, residue, address, in this order (rules R221, R222, R606). -/
theorem rtuFrameEnd_received : rtuFrameEnd env ((s.rtuReceived t a p lo hi).answer res) =
    if p.length < s.cfg.minPdu then (rtuReject .short (s.rtuReceived t a p lo hi)).answer res
    else if crc16 (a :: p) ≠ be16 hi lo then (rtuReject .crc (s.rtuReceived t a p lo hi)).answer res
    else if addrOk s.rtu.stationAddress a then notifyMaster .rtu env ((s.rtuHeld t a p lo hi).answer res)
    else (rtuReject .address (s.rtuReceived t a p lo hi)).answer res := by
  have hlen : p.length + 3 < 3 + s.cfg.minPdu ↔ p.length < s.cfg.minPdu := by omega
  have hcrc : crc16 (a :: p ++ [lo, hi]) ≠ 0x0000#16 ↔ crc16 (a :: p) ≠ be16 hi lo := not_congr crc16_residue
  rw [← ite_congr (propext hlen) (fun _ => rfl) fun _ => ite_congr (propext hcrc) (fun _ => rfl) fun _ => rfl]
  rfl

/-- The master engine takes the frame (rule R450). -/
theorem frameReadyStep_rtuHeld (hf : s.fault = none) (hc : s.rtu.configured = true)
    (hv : env.verdict = s.inputs.verdict) : frameReadyStep .rtu env ((s.rtuHeld t a p lo hi).answer res) =
      ((s.rtuHeld t a p lo hi).released .rtu (s.frameTaken a p (nowTick s.cfg env)).1
        (s.frameTaken a p (nowTick s.cfg env)).2).answer res := by
  have hready : State.Ready .rtu ((s.rtuHeld t a p lo hi).answer res) := ⟨hf, hc, rfl⟩
  exact hready.frameReadyStep_eq (Memory.readRange_writeList p s.rtu.buf 0) hv

end FrameEnd

/-- Settles O47: the drain of the bytes, then `frame_end()` after the silence; a frame past CAP overflows. -/
theorem rtuAduIsReceived : Obligations.RtuAduIsReceived := by
  intro a lo hi p s t35 _ hf hst hc ht35 hlt passes r ends received taken
  have hexec : exec (.rtuAdu a p lo hi) s =
      .next (rtuLineFrame s.inputs (rtuAduBytes a p lo hi) (s.answer .none)) := congrArg _ (State.command_of_ok _ hf)
  have hpass : addrOk s.rtu.stationAddress a = true ↔ passes := addrOk_iff ..
  have fits {ev : List Event} {r' : RtuFramer} {m : Master} (hp : p.length ≤ cap s.cfg)
      (hst' : r'.st = .idle ∨ r'.st = .frameReady)
      (hu : ∀ res, rtuFrameEnd (s.inputs.afterSilence t35) ((s.rtuReceived s.now a p lo hi).answer res) =
        State.answer res { s with events := s.events ++ ev, rtu := r', mst := m }) : ends ev r' m :=
    hexec.trans (congrArg _ (rtuLineFrame_of_frameEnd (s := s.answer .none)
      (u := { s with events := s.events ++ ev, rtu := r', mst := m }) hf hc hst ht35 hlt hp hu hf hst'))
  refine ⟨fun hp hm => fits hp (.inl rfl) fun res => ?_, fun hp hm hcrc => fits hp (.inl rfl) fun res => ?_,
    fun hp hm hcrc ha => fits hp (.inl rfl) fun res => ?_, fun ⟨hp, hm, hcrc, ha⟩ hb => fits hp (.inr rfl) fun res => ?_,
    fun ⟨hp, hm, hcrc, ha⟩ hb => fits hp (.inl rfl) fun res => ?_, fun hp => ?_⟩
  · rw [rtuFrameEnd_received, if_pos hm]; rfl
  · rw [rtuFrameEnd_received, if_neg (by omega), if_pos hcrc]; rfl
  · rw [rtuFrameEnd_received, if_neg (by omega), if_neg (not_not.2 hcrc), if_neg (hpass.not.2 ha)]; rfl
  · rw [rtuFrameEnd_received, if_neg (by omega), if_neg (not_not.2 hcrc), if_pos (hpass.2 ha), notifyMaster,
      if_neg (by exact hb)]
    rfl
  · have hverdict : (s.inputs.afterSilence t35).verdict = s.inputs.verdict := rfl
    rw [rtuFrameEnd_received, if_neg (by omega), if_neg (not_not.2 hcrc), if_pos (hpass.2 ha), notifyMaster,
      if_pos (by exact hb), frameReadyStep_rtuHeld hf hc hverdict]
    simp only [State.released, State.rtuHeld, List.append_assoc]
    rfl
  · obtain ⟨q, x, y, hq, e⟩ := rtuLineFrame_overflow (s := s.answer .none) (env := s.inputs) a lo hi hf hc hst ht35 hlt hp
    refine ⟨_, hexec.trans (congrArg _ e), hf, rfl, rfl, rfl, rfl, rfl, fun k hk => ?_⟩
    exact Memory.read_writeList_beyond q s.rtu.buf (by rw [Nat.zero_add, hq]; exact hk)

end Sys2Proof.Machine
end

section
/-! PROOFS. A whole ASCII frame on the line (rules R143 to R145, R309, R310, R312, R313, R315): the POLL that reads its
characters, two for each byte, and the end of the frame at LF. -/

namespace Sys2Proof.Machine

/-! ### The characters of a frame -/

/-- The ASCII framer has read, at tick `t`, the address `a`, the bytes `p`, which are in its buffer, and the byte `l`, which
is pending (rule R310). -/
def State.ascReceived (t : Nat) (a : Byte) (p : List Byte) (l : Byte) (s : State) : State :=
  { s with asc := { s.asc with st := .rxPduHigh, frameAddress := a, bufferLen := p.length, lrc := byteSum (a :: p)
                               nib := highNibble l, pend := l, pendValid := true, last := t
                               buf := s.asc.buf.writeList 0 p } }

/-- Nothing more to do. -/
@[simp] theorem State.andThen_id (s : State) : (s.andThen fun s => s) = s := ite_self s

/-- A drain that ends without a read error stops where its characters end. -/
theorem ascDrain_append {env : Inputs} (he : env.rxError = false) (ds : List Byte) : ∀ (cs : List Byte) (s : State),
    s.fault = none → ascDrain env (cs ++ ds) s = (ascDrain env cs s).andThen (ascDrain env ds)
  | [], s, hf => by simp [ascDrain, he, hf]
  | c :: cs, s, hf => by
    rw [List.cons_append, ascDrain, ascDrain]
    obtain ⟨r, hr, e⟩ | ⟨hn, e⟩ := State.andThen_cases (ascOnChar env c s) (ascDrain env (cs ++ ds))
    · rw [e, State.andThen_of_fault _ hr, State.andThen_of_fault _ hr]
    · rw [e, State.andThen_of_ok _ hn, ascDrain_append he ds cs _ hn]

section Chars

variable {env : Inputs} {s : State}

/-- `:`, the address and the first byte after it (rules R309, R310). -/
theorem ascDrain_start (he : env.rxError = false) (hf : s.fault = none) (hst : s.asc.st = .idle) (a l : Byte) :
    ascDrain env (chColon :: hexOfBytes [a, l]) s = s.ascReceived (nowTick s.cfg env) a [] l := by
  simp [ascDrain, hexOfBytes, ascOnChar, ascStartFrame, ascReceiveChar, ascAddress, ascDecodedByte, ascPend, hexchar_ne, hst,
    hf, he, State.ascReceived, Memory.writeList]

/-- One more byte takes the place of the pending one, while the buffer has room (rule R310). -/
theorem ascDrain_byte (he : env.rxError = false) (hf : s.fault = none) (a b l : Byte) {p : List Byte}
    (hp : p.length < cap s.cfg) :
    ascDrain env (hexOfBytes [b]) (s.ascReceived (nowTick s.cfg env) a p l) =
      s.ascReceived (nowTick s.cfg env) a (p ++ [l]) b := by
  have hroom : p.length < s.cfg.bufferMax := hp.trans_le (cap_le s.cfg).1
  have hsum : byteSum (a :: p) + l = byteSum (a :: (p ++ [l])) := (byteSum_concat (a :: p) l).symm
  simp [ascDrain, hexOfBytes, ascOnChar, ascReceiveChar, ascDecodedByte, ascPend, hexchar_ne, hf, he, State.ascReceived,
    Memory.writeList_concat, State.bufWrite, State.buf, State.setBuf, hroom, hp.ne, hsum]

/-- A frame whose PDU fits is read up to its CR. -/
theorem ascDrain_frame (he : env.rxError = false) (hf : s.fault = none) (hst : s.asc.st = .idle) (a : Byte)
    (p : List Byte) : ∀ l : Byte, p.length ≤ cap s.cfg →
    ascDrain env (chColon :: hexOfBytes (a :: (p ++ [l]))) s = s.ascReceived (nowTick s.cfg env) a p l := by
  induction p using List.reverseRecOn with
  | nil => exact fun l _ => ascDrain_start he hf hst a l
  | append_singleton p x ih =>
    intro l hp
    rw [List.length_append, List.length_singleton] at hp
    have hsplit : chColon :: hexOfBytes (a :: (p ++ [x] ++ [l])) =
        (chColon :: hexOfBytes (a :: (p ++ [x]))) ++ hexOfBytes [l] := by
      rw [List.cons_append, ← hexOfBytes_append, List.cons_append]
    rw [hsplit, ascDrain_append he _ _ _ hf, ih x (by omega), State.andThen_of_ok _ (by exact hf),
      ascDrain_byte he hf a l x (by omega)]

/-- Before the next `:` an idle framer drops what it reads (rule R309). -/
theorem ascDrain_idle (he : env.rxError = false) (hf : s.fault = none) (hst : s.asc.st = .idle)
    (hl : s.asc.last = nowTick s.cfg env) : ∀ cs : List Byte, chColon ∉ cs → ascDrain env cs s = s
  | [], _ => by simp [ascDrain, he]
  | c :: cs, hcs => by
    rw [List.mem_cons, not_or] at hcs
    have hstamp : { s with asc := { s.asc with last := nowTick s.cfg env } } = s := by rw [← hl]
    have hchar : ascOnChar env c s = s := by
      dsimp only [ascOnChar]
      rw [hstamp, hst, if_neg (Ne.symm hcs.1)]
    rw [ascDrain, hchar, State.andThen_of_ok _ hf, ascDrain_idle he hf hst hl cs hcs.2]

theorem chColon_notMem_hexOfBytes : ∀ bs : List Byte, chColon ∉ hexOfBytes bs
  | [] => List.not_mem_nil
  | b :: bs => by
    simp [hexOfBytes, chColon_notMem_hexOfBytes bs, (hexchar_ne (highNibble b)).1.symm, (hexchar_ne (lowNibble b)).1.symm]

/-- A frame whose PDU does not fit: its first CAP bytes are in the buffer, and the end of the byte after the next is the
overflow (rule R315). -/
theorem ascDrain_overflow (he : env.rxError = false) (hf : s.fault = none) (hst : s.asc.st = .idle) (a l : Byte)
    {p : List Byte} (hp : cap s.cfg < p.length) :
    ∃ q x n, q.length = cap s.cfg ∧ ascDrain env (asciiAduChars a p l) s =
      ascDiscard .overflow { s with asc := { (s.ascReceived (nowTick s.cfg env) a q x).asc with nib := n } } := by
  obtain ⟨b, rest, hb⟩ : ∃ b rest, p.drop (cap s.cfg + 1) ++ [l] = b :: rest :=
    match p.drop (cap s.cfg + 1) with
    | [] => ⟨l, [], rfl⟩
    | z :: r => ⟨z, r ++ [l], rfl⟩
  obtain ⟨q, x, hq, hsplit⟩ : ∃ q x, q.length = cap s.cfg ∧ asciiAduChars a p l =
      (chColon :: hexOfBytes (a :: (q ++ [x]))) ++ (hexOfBytes [b] ++ (hexOfBytes rest ++ [chCr, chLf])) := by
    refine ⟨p.take (cap s.cfg), p[cap s.cfg], List.length_take_of_le hp.le, ?_⟩
    conv_lhs => rw [asciiAduChars, ← List.take_append_drop (cap s.cfg) p, List.drop_eq_getElem_cons hp]
    simp only [List.cons_append, List.append_assoc, hb, hexOfBytes_append, hexOfBytes, List.nil_append]
  have hbyte : ascDrain env (hexOfBytes [b]) (s.ascReceived (nowTick s.cfg env) a q x) = ascDiscard .overflow
      { s with asc := { (s.ascReceived (nowTick s.cfg env) a q x).asc with nib := highNibble b } } := by
    simp [ascDrain, hexOfBytes, ascOnChar, ascReceiveChar, ascDecodedByte, hexchar_ne, hf, he, State.ascReceived, hq,
      ascDiscard]
  have hrest : chColon ∉ hexOfBytes rest ++ [chCr, chLf] := by
    rw [List.mem_append, not_or]
    exact ⟨chColon_notMem_hexOfBytes rest, by decide⟩
  refine ⟨q, x, highNibble b, hq, ?_⟩
  rw [hsplit, ascDrain_append he _ _ _ hf, ascDrain_frame he hf hst a q x hq.le, State.andThen_of_ok _ (by exact hf),
    ascDrain_append he _ _ _ (by exact hf), hbyte, State.andThen_of_ok _ (by exact hf)]
  refine ascDrain_idle he ?_ ?_ ?_ _ hrest
  · exact hf
  · rfl
  · rfl

end Chars

/-! ### The POLL -/

section Poll

variable {env : Inputs} {s : State}

/-- The POLL that reads a frame in `idle`, where the frame leaves the framer in `idle` or `frame_ready`. -/
theorem ascLineFrame_of_drained {cs : List Byte} {t : State} (hf : s.fault = none) (hst : s.asc.st = .idle)
    (hd : ascDrain (env.reading cs) cs s = t) (htf : t.fault = none) (ht : t.asc.st = .idle ∨ t.asc.st = .frameReady) :
    ascLineFrame env cs s = t.answer (.ticks 0) := by
  have hp : ascPollTimers (env.reading cs) s = s := by simp [ascPollTimers, hst, AscSt.receiving]
  have hno : ascTransmitPhase (env.reading cs) t = t := by
    obtain e | e := ht <;> simp [ascTransmitPhase, e, AscSt.transmitting]
  have hzero : ascDeadline (env.reading cs) t = 0 := by obtain e | e := ht <;> simp [ascDeadline, e]
  rw [ascLineFrame, ascPoll, if_neg (by rw [hst]; decide), hp, State.andThen_of_ok _ hf]
  rw [show (env.reading cs).rx = cs from rfl, hd, State.andThen_of_ok _ htf, hno, State.andThen_of_ok _ htf, hzero]

/-- A frame received up to its CR. -/
def State.ascEnding (t : Nat) (a : Byte) (p : List Byte) (l : Byte) (s : State) : State :=
  { s with asc := { (s.ascReceived t a p l).asc with st := .rxCr } }

/-- CR and LF after a frame that fits (rules R310, R312). -/
theorem ascDrain_adu (he : env.rxError = false) (hf : s.fault = none) (hst : s.asc.st = .idle) (a l : Byte)
    {p : List Byte} (hp : p.length ≤ cap s.cfg) : ascDrain env (asciiAduChars a p l) s =
      ascFrameEnd env (s.ascEnding (nowTick s.cfg env) a p l) := by
  have hsplit : asciiAduChars a p l = (chColon :: hexOfBytes (a :: (p ++ [l]))) ++ [chCr, chLf] := rfl
  have hcr : ascOnChar env chCr (s.ascReceived (nowTick s.cfg env) a p l) =
      s.ascEnding (nowTick s.cfg env) a p l := rfl
  have hlf : ascOnChar env chLf (s.ascEnding (nowTick s.cfg env) a p l) =
      ascFrameEnd env (s.ascEnding (nowTick s.cfg env) a p l) := rfl
  have hend : ascDrain env [] = fun s => s := by funext t; simp [ascDrain, he]
  rw [hsplit, ascDrain_append he _ _ _ hf, ascDrain_frame he hf hst a p l hp, State.andThen_of_ok _ (by exact hf),
    ascDrain, hcr, State.andThen_of_ok _ (by exact hf), ascDrain, hlf, hend, State.andThen_id]

end Poll

/-! ### The end of a frame -/

section FrameEnd

variable {env : Inputs} {s : State} {t : Nat} {a l : Byte} {p : List Byte} {res : Result}

/-- A frame received whole that its host is told of (rule R312). -/
def State.ascHeld (t : Nat) (a : Byte) (p : List Byte) (l : Byte) (s : State) : State :=
  { s with events := s.events ++ [.frameReady .ascii]
           asc := { (s.ascReceived t a p l).asc with st := .frameReady } }

/-- `frame_end()` on a frame received whole: length, LRC, address, in this order (rules R312, R313, R606). -/
theorem ascFrameEnd_ending : ascFrameEnd env ((s.ascEnding t a p l).answer res) =
    if p.length < s.cfg.minPdu then (ascDiscard .short (s.ascReceived t a p l)).answer res
    else if l ≠ lrcOf a p then (ascDiscard .lrc (s.ascReceived t a p l)).answer res
    else if addrOk s.asc.stationAddress a then notifyMaster .ascii env ((s.ascHeld t a p l).answer res)
    else (ascDiscard .address (s.ascReceived t a p l)).answer res := by
  have hlen : true = false ∨ p.length < s.cfg.minPdu ↔ p.length < s.cfg.minPdu := by simp
  have hlrc : 0#8 - byteSum (a :: p) ≠ l ↔ l ≠ lrcOf a p := ne_comm
  rw [← ite_congr (propext hlen) (fun _ => rfl) fun _ => ite_congr (propext hlrc) (fun _ => rfl) fun _ => rfl]
  rfl

/-- The master engine takes the frame (rule R450). -/
theorem frameReadyStep_ascHeld (hf : s.fault = none) (hv : env.verdict = s.inputs.verdict) :
    frameReadyStep .ascii env ((s.ascHeld t a p l).answer res) =
      ((s.ascHeld t a p l).released .ascii (s.frameTaken a p (nowTick s.cfg env)).1
        (s.frameTaken a p (nowTick s.cfg env)).2).answer res := by
  have hready : State.Ready .ascii ((s.ascHeld t a p l).answer res) := ⟨hf, rfl, rfl⟩
  exact hready.frameReadyStep_eq (Memory.readRange_writeList p s.asc.buf 0) hv

end FrameEnd

/-- Settles O48: the drain of the characters, then `frame_end()` at LF; a frame past CAP overflows. -/
theorem asciiAduIsReceived : Obligations.AsciiAduIsReceived := by
  intro a l p s _ hf hst passes r ends received taken
  have hexec : exec (.asciiAdu a p l) s =
      .next (ascLineFrame s.inputs (asciiAduChars a p l) (s.answer .none)) := congrArg _ (State.command_of_ok _ hf)
  have hpass : addrOk s.asc.stationAddress a = true ↔ passes := addrOk_iff ..
  have fits {ev : List Event} {r' : AscFramer} {m : Master} (hp : p.length ≤ cap s.cfg)
      (hst' : r'.st = .idle ∨ r'.st = .frameReady)
      (hu : ascFrameEnd (s.inputs.reading (asciiAduChars a p l)) ((s.ascEnding s.now a p l).answer .none) =
        State.answer .none { s with events := s.events ++ ev, asc := r', mst := m }) : ends ev r' m :=
    have hdrain := ascDrain_adu (env := s.inputs.reading (asciiAduChars a p l)) (s := s.answer .none) rfl hf hst a l hp
    hexec.trans (congrArg Host.Outcome.next (ascLineFrame_of_drained (s := s.answer .none)
      (t := State.answer .none { s with events := s.events ++ ev, asc := r', mst := m }) hf hst (hdrain.trans hu)
      hf hst'))
  refine ⟨fun hp hm => fits hp (.inl rfl) ?_, fun hp hm hl => fits hp (.inl rfl) ?_,
    fun hp hm hl ha => fits hp (.inl rfl) ?_, fun ⟨hp, hm, hl, ha⟩ hb => fits hp (.inr rfl) ?_,
    fun ⟨hp, hm, hl, ha⟩ hb => fits hp (.inl rfl) ?_, fun hp => ?_⟩
  · rw [ascFrameEnd_ending, if_pos hm]; rfl
  · rw [ascFrameEnd_ending, if_neg (Nat.not_lt.2 hm), if_pos hl]; rfl
  · rw [ascFrameEnd_ending, if_neg (Nat.not_lt.2 hm), if_neg (not_not.2 hl), if_neg (hpass.not.2 ha)]; rfl
  · rw [ascFrameEnd_ending, if_neg (Nat.not_lt.2 hm), if_neg (not_not.2 hl), if_pos (hpass.2 ha), notifyMaster,
      if_neg (by exact hb)]
    rfl
  · have hverdict : (s.inputs.reading (asciiAduChars a p l)).verdict = s.inputs.verdict := rfl
    rw [ascFrameEnd_ending, if_neg (Nat.not_lt.2 hm), if_neg (not_not.2 hl), if_pos (hpass.2 ha), notifyMaster,
      if_pos (by exact hb), frameReadyStep_ascHeld hf hverdict]
    simp only [State.released, State.ascHeld, List.append_assoc]
    rfl
  · obtain ⟨q, x, n, hq, e⟩ := ascDrain_overflow (env := s.inputs.reading (asciiAduChars a p l)) (s := s.answer .none) rfl
      hf hst a l hp
    refine ⟨_, hexec.trans (congrArg _ (ascLineFrame_of_drained hf hst e hf (.inl rfl))), hf, rfl, rfl, rfl, rfl, rfl,
      fun k hk => ?_⟩
    exact Memory.read_writeList_beyond q s.asc.buf (by rw [Nat.zero_add, hq]; exact hk)

end Sys2Proof.Machine
end

section
/-! PROOFS. The reply rows of the table, from the line to the master engine (rules R149, R150, R450, R454, R455, R460 to
R469). -/

namespace Sys2Proof.Machine

/-! ### What the engine decodes -/

/-- The checks of a reply with a byte count and data. -/
theorem replyCount_iff (bc : Byte) (n least : Nat) :
    replyCount bc n least = true ↔ bc.toNat = n ∧ least ≤ n ∧ 2 + n ≤ maxPdu := by
  simp only [replyCount, Bool.and_eq_true, beq_iff_eq, decide_eq_true_eq, and_assoc]

/-- A byte count that is that of the data (rules R461, R462). -/
theorem countMatches_cons {fc bc : Byte} {d : List Byte} (h : bc.toNat = d.length) :
    countMatches (fc :: bc :: d) = true := by
  simp only [countMatches, pduByte, List.length_cons, List.getD_cons_succ, List.getD_cons_zero, h, Bool.and_eq_true,
    decide_eq_true_eq, beq_iff_eq]
  omega

/-- A reply of registers: the count is that of its data, and even (rules R462, R467). -/
theorem registerCountOk_cons {fc bc : Byte} {ws : List Word16} (h : replyCount bc (2 * ws.length) 2 = true) :
    registerCountOk (fc :: bc :: bytesOfWords ws) = true := by
  obtain ⟨hbc, hleast, -⟩ := (replyCount_iff ..).1 h
  have hm := countMatches_cons (fc := fc) (hbc.trans (length_bytesOfWords ws).symm)
  simp [registerCountOk, hm, pduByte, hbc, hleast]

/-- Each reply row decodes as its rule says (rules R460 to R469). -/
theorem decodeReply_encode (m : Master) : ∀ i : Instr, i.wf = true → portOf i = .reply →
    decodeReply m (encode i) = expectedReply m i
  | .pduRspReadCoils bc d, h, _ | .pduRspReadDiscreteInputs bc d, h, _ => by
      obtain ⟨hbc, hleast, -⟩ := (replyCount_iff bc d.length 1).1 h
      simp [decodeReply, encode, pduCounted, pduByte, decodeBits, countMatches_cons hbc, hbc, hleast, expectedReply]
  | .pduRspReadHoldingRegisters bc ws, h, _ | .pduRspReadInputRegisters bc ws, h, _ => by
      obtain ⟨hbc, -⟩ := (replyCount_iff bc (2 * ws.length) 2).1 h
      simp [decodeReply, encode, decodeRegisters, registerCountOk_cons h, pduByte, pduCounted, expectedReply, hbc]
  | .pduRspReadWriteMultipleRegisters bc ws, h, _ => by
      obtain ⟨hbc, -⟩ := (replyCount_iff bc (2 * ws.length) 2).1 h
      simp [decodeReply, encode, decodeReadWrite, registerCountOk_cons h, pduByte, pduCounted, expectedReply, hbc]
  | .pduRspWriteSingleCoil a v, h, _ => by
      have hv : coilValue v = true := h
      simp [decodeReply, encode, pduWords, pduByte, decodeCoil, pduWord, hv, expectedReply]
  | .pduRspWriteSingleRegister a v, _, _ => by
      simp [decodeReply, encode, pduWords, pduByte, decodeRegister, pduWord, expectedReply]
  | .pduRspWriteMultipleCoils a q, _, _ | .pduRspWriteMultipleRegisters a q, _, _ => by
      simp [decodeReply, encode, pduWords, pduByte, decodeCount, pduWord, expectedReply]
  | .pduRspException fc code, _, _ => by
      simp [decodeReply, encode, pduException, pduByte, decodeException, exceptionByte_toNat, extract_exceptionByte,
        expectedReply]
  | .pduRspOther fc d, h, _ => by
      simp only [Instr.wf, supportedFunction, Bool.and_eq_true, decide_eq_true_eq, Bool.not_eq_true',
        Bool.or_eq_false_iff, beq_eq_false_iff_ne] at h
      simp [decodeReply, encode, pduByte, expectedReply, h, Nat.not_le.2 h.1.1]

/-! ### The arrival -/

/-- A reply row is the arrival of its encoding. -/
theorem exec_reply (s : State) : ∀ i : Instr, portOf i = .reply → exec i s = replyCommand (encode i) s
  | .pduRspReadCoils .., _ | .pduRspReadDiscreteInputs .., _ | .pduRspReadHoldingRegisters .., _
  | .pduRspReadInputRegisters .., _ | .pduRspWriteSingleCoil .., _ | .pduRspWriteSingleRegister .., _
  | .pduRspWriteMultipleCoils .., _ | .pduRspWriteMultipleRegisters .., _
  | .pduRspReadWriteMultipleRegisters .., _ | .pduRspException .., _ | .pduRspOther .., _ => rfl

/-- The engine finds the awaited frame malformed (rule R455). -/
theorem State.frameTaken_of_none {s : State} {p : List Byte} (hw : s.mst.st = .waitingForReply) (ne : p ≠ [])
    (hd : decodeReply s.mst p = none) (now : Nat) :
    s.frameTaken s.mst.slave p now = ([.malformed], { s.mst with st := .processingError }) := by
  rw [State.frameTaken, if_neg (by simp [ne, hw]), if_neg (by simp), hd]

/-- The engine delivers the awaited frame (rule R454). -/
theorem State.frameTaken_of_some {s : State} {p : List Byte} {r : Event} (hw : s.mst.st = .waitingForReply) (ne : p ≠ [])
    (hd : decodeReply s.mst p = some r) (now : Nat) : s.frameTaken s.mst.slave p now =
      ([r, .verdict s.inputs.verdict], { s.mst with st := if s.inputs.verdict then .idle else .processingError }) := by
  rw [State.frameTaken, if_neg (by simp [ne, hw]), if_neg (by simp), hd]

/-- A reply row is an ADU of the bound framer's line, from the station that the command's inputs name (DESIGN CHOICE,
notes/assumptions/2.md). -/
theorem exec_reply_eq_adu {s : State} {i : Instr} (hp : portOf i = .reply) (hf : s.fault = none) :
    (s.cfg.master = some .rtu → exec i s = exec (.rtuAdu s.inputs.address (encode i)
      (lo8 (crc16 (s.inputs.address :: encode i))) (hi8 (crc16 (s.inputs.address :: encode i)))) s) ∧
    (s.cfg.master = some .ascii →
      exec i s = exec (.asciiAdu s.inputs.address (encode i) (lrcOf s.inputs.address (encode i))) s) := by
  have harrives : exec i s = .next (replyArrives s.inputs (encode i) (s.answer .none)) :=
    (exec_reply s i hp).trans (congrArg _ (State.command_of_ok _ hf))
  constructor <;> intro hm
  · rw [harrives, replyArrives, show (s.answer .none).cfg.master = _ from hm]
    exact congrArg Host.Outcome.next (State.command_of_ok (fun s' => rtuLineFrame s'.inputs _ s') hf).symm
  · rw [harrives, replyArrives, show (s.answer .none).cfg.master = _ from hm]
    exact congrArg Host.Outcome.next (State.command_of_ok (fun s' => ascLineFrame s'.inputs _ s') hf).symm

/-- Settles O53: the arrival of the ADU that carries the row, whose PDU the engine decodes as `expectedReply` says. -/
theorem repliesAreDelivered : Obligations.RepliesAreDelivered := by
  intro u i s hp hi hm hw ha hl hmin hcap
  obtain ⟨fc, args, hcons, -⟩ := replyFields_of_encode i hi hp
  have ne : encode i ≠ [] := by simp [hcons]
  have hpos : 1 ≤ (encode i).length := List.length_pos_iff.2 ne
  have hmax : (encode i).length ≤ maxPdu := hcap.trans (cap_le s.cfg).2
  have hdec := decodeReply_encode s.mst i hi hp
  have hsome (r : Event) (h : expectedReply s.mst i = some r) := State.frameTaken_of_some hw ne (hdec.trans h)
  have hnone (h : expectedReply s.mst i = none) := State.frameTaken_of_none hw ne (hdec.trans h)
  obtain ⟨hf, hl⟩ := hl
  cases u with
  | rtu =>
    obtain ⟨hst, hc, ⟨t35, ht35, hlt⟩, hpass⟩ := hl
    obtain ⟨-, -, -, -, htaken, -⟩ := rtuAduIsReceived s.inputs.address
      (lo8 (crc16 (s.inputs.address :: encode i))) (hi8 (crc16 (s.inputs.address :: encode i))) (encode i) s t35
      (by simp [Instr.wf, hpos, hmax]) hf hst hc ht35 hlt
    have hexec := ((exec_reply_eq_adu hp hf).1 hm).trans (htaken ⟨hcap, hmin, (be16_hi8_lo8 _).symm, hpass⟩ hm)
    rw [ha] at hexec ⊢
    exact ⟨_, hexec, hf, rfl, fun r h => by simp [hsome r h], fun h => by simp [hnone h], rfl, rfl, rfl, rfl, rfl, rfl,
      fun _ => ⟨rfl, rfl⟩, nofun⟩
  | ascii =>
    obtain ⟨hst, hpass⟩ := hl
    obtain ⟨-, -, -, -, htaken, -⟩ := asciiAduIsReceived s.inputs.address (lrcOf s.inputs.address (encode i)) (encode i) s
      (by simp [Instr.wf, hpos, hmax]) hf hst
    have hexec := ((exec_reply_eq_adu hp hf).2 hm).trans (htaken ⟨hcap, hmin, rfl, hpass⟩ hm)
    rw [ha] at hexec ⊢
    exact ⟨_, hexec, hf, rfl, fun r h => by simp [hsome r h], fun h => by simp [hnone h], rfl, rfl, rfl, rfl, rfl, rfl,
      nofun, fun _ => ⟨rfl, rfl⟩⟩

end Sys2Proof.Machine
end

section
/-! PROOFS. The transmit progress of both framers in closed form (rules R231, R233, R234, R236, R322, R323, R325, R326): the
bytes of the ADU that the stream accepts, and the state that the next answer leads to. -/

namespace Sys2Proof.Machine

/-! ### Offers, for both framers -/

theorem accepted_le (env : Inputs) (n : Nat) : env.accepted n ≤ n := by
  unfold Inputs.accepted
  split
  · exact le_rfl
  · exact min_le_right ..

theorem streamWrite_of_ne (env : Inputs) : ∀ {left : Option Nat}, left ≠ some 0 → streamWrite env left = .accepted
  | none, _ | some (_ + 1), _ => rfl
  | some 0, h => absurd rfl h

/-- A loop that offers one byte in each of the states `σ 0` to `σ (L - 1)` and ends in `σ L`, where the stream accepts
`left` more offers: it stops at the first offer that is not accepted. -/
theorem offers_of_steps {env : Inputs} {loop : Nat → Option Nat → State → State} {fail : State → State}
    {σ : Nat → State} {L : Nat}
    (hstep : ∀ fuel left j, j < L → loop (fuel + 1) left (σ j) =
      if left = some 0 then if env.txError then fail (σ j) else σ j else loop fuel (offersLeft left) (σ (j + 1)))
    (hend : ∀ fuel left, loop fuel left (σ L) = σ L) : ∀ (n j fuel : Nat) (left : Option Nat), j + n = L → n ≤ fuel →
    loop fuel left (σ j) =
      if Inputs.accepted { env with txAccept := left } n < n then
        if env.txError then fail (σ (j + Inputs.accepted { env with txAccept := left } n))
        else σ (j + Inputs.accepted { env with txAccept := left } n)
      else σ L
  | 0, j, fuel, left, hj, _ => by rw [if_neg (Nat.not_lt_zero _), show j = L from hj, hend]
  | n + 1, j, fuel + 1, left, hj, hn => by
    rw [hstep fuel left j (by omega)]
    have ih := fun left => offers_of_steps hstep hend n (j + 1) fuel left (by omega) (by omega)
    match left with
    | none => simpa [offersLeft, Inputs.accepted] using ih none
    | some 0 => simp [Inputs.accepted]
    | some (k + 1) =>
      have hk := ih (some k)
      have hmin : min (k + 1) (n + 1) = min k n + 1 := by omega
      simp only [Inputs.accepted] at hk
      rw [if_neg (by simp)]
      simp only [offersLeft, Option.map_some, Nat.add_sub_cancel, Inputs.accepted, hk, hmin, Nat.add_lt_add_iff_right,
        Nat.add_assoc, Nat.add_comm 1]

/-! ### RTU -/

/-- One turn of the loop (rule R233). -/
theorem rtuTxLoop_turn {env : Inputs} {fuel : Nat} {left : Option Nat} {t : State} {b : Byte}
    (ho : t.rtu.st.offering = true) (hb : rtuTxByte t = .ok b) : rtuTxLoop env (fuel + 1) left t =
      if left = some 0 then if env.txError then rtuWriteError t else t
      else rtuTxLoop env fuel (offersLeft left) (rtuTxAccepted b t) := by
  rw [rtuTxLoop, if_pos ho, hb]
  by_cases hzero : left = some 0
  · subst hzero
    cases hx : env.txError <;> simp [streamWrite, hx]
  · simp only [streamWrite_of_ne env hzero, hzero, if_false]

/-- The RTU framer holds the PDU `p` for station `a`, and its CRC (rule R230). -/
structure State.RtuHolds (a : Byte) (p : List Byte) (s : State) : Prop where
  fault : s.fault = none
  frameAddress : s.rtu.frameAddress = a
  bufferLen : s.rtu.bufferLen = p.length
  buf : s.rtu.buf.readRange 0 p.length = some p
  txCrc : s.rtu.txCrc = crc16 (a :: p)
  pos : 1 ≤ p.length
  room : p.length ≤ s.cfg.bufferMax

/-- `n` bytes of the ADU of a PDU of `len` bytes have been accepted, `line` of them in this command. -/
def State.rtuSent (len n : Nat) (line : List Byte) (s : State) : State :=
  { s with rtuLine := s.rtuLine ++ line
           rtu := { s.rtu with st := (rtuSentAt s.cfg len n).1, txIndex := (rtuSentAt s.cfg len n).2 } }

@[simp] theorem length_rtuAduOf (a : Byte) (p : List Byte) : (rtuAduOf a p).length = p.length + 3 := by
  simp [rtuAduOf, rtuAduBytes]

/-- The four stretches of a transmission (rule R231). -/
theorem rtuSentAt_cases (c : Config) {len n : Nat} (hn : n < len + 3) :
    (n = 0 ∧ rtuSentAt c len n = (.txAddr, 0)) ∨
    (∃ k, n = k + 1 ∧ k < len ∧ rtuSentAt c len n = (.txPdu, k)) ∨
    (n = len + 1 ∧ rtuSentAt c len n = (.txCrc, 0)) ∨ (n = len + 2 ∧ rtuSentAt c len n = (.txCrc, 1)) := by
  unfold rtuSentAt
  obtain rfl | h1 : n = 0 ∨ 0 < n := by omega
  · exact .inl ⟨rfl, rfl⟩
  obtain h2 | h2 : n ≤ len ∨ len < n := by omega
  · exact .inr (.inl ⟨n - 1, by omega, by omega, by rw [if_neg (by omega), if_pos h2]⟩)
  · rw [if_neg (by omega), if_neg (by omega), if_pos hn]
    obtain rfl | rfl : n = len + 1 ∨ n = len + 2 := by omega
    · exact .inr (.inr (.inl ⟨rfl, by simp⟩))
    · exact .inr (.inr (.inr ⟨rfl, by simp⟩))

theorem rtuSentAt_end (c : Config) (len : Nat) : rtuSentAt c len (len + 3) = (.txDrain, min 2 (cap c)) := by
  simp [rtuSentAt]

/-- An accepted byte moves the registers on (rule R233). -/
theorem rtuTxAdvance_sentAt (c : Config) {r : RtuFramer} {len n : Nat} (hr : r.bufferLen = len) (hpos : 1 ≤ len)
    (hn : n < len + 3) :
    rtuTxAdvance c { r with st := (rtuSentAt c len n).1, txIndex := (rtuSentAt c len n).2 } =
      { r with st := (rtuSentAt c len (n + 1)).1, txIndex := (rtuSentAt c len (n + 1)).2 } := by
  obtain ⟨rfl, e⟩ | ⟨k, rfl, hk, e⟩ | ⟨rfl, e⟩ | ⟨rfl, e⟩ := rtuSentAt_cases c hn
  · have e' : rtuSentAt c len (0 + 1) = (.txPdu, 0) := by simp [rtuSentAt, hpos]
    simp only [rtuTxAdvance, e, e']
  · by_cases hlast : k + 1 = len
    · subst hlast
      have e' : rtuSentAt c (k + 1) (k + 1 + 1) = (.txCrc, 0) := by simp [rtuSentAt]
      simp only [rtuTxAdvance, e, e', hr, if_true]
    · have e' : rtuSentAt c len (k + 1 + 1) = (.txPdu, k + 1) := by
        simp [rtuSentAt, show k + 1 + 1 ≤ len by omega]
      simp only [rtuTxAdvance, e, e', hr, hlast, if_false]
  · have e' : rtuSentAt c len (len + 1 + 1) = (.txCrc, 1) := by simp [rtuSentAt]
    simp only [rtuTxAdvance, e, e', Nat.reduceAdd, Nat.reduceEqDiff, if_false]
  · have e' : rtuSentAt c len (len + 2 + 1) = (.txDrain, min 2 (cap c)) := rtuSentAt_end c len
    simp only [rtuTxAdvance, e, e', Nat.reduceAdd, if_true]

section Rtu

variable {a : Byte} {p : List Byte} {s : State} (h : s.RtuHolds a p)
include h

omit h in
/-- The ADU is not yet sent whole. -/
theorem offering_rtuSent {n : Nat} (hn : n < (rtuAduOf a p).length) (line : List Byte) :
    (s.rtuSent p.length n line).rtu.st.offering = true := by
  rw [length_rtuAduOf] at hn
  obtain ⟨-, e⟩ | ⟨k, -, -, e⟩ | ⟨-, e⟩ | ⟨-, e⟩ := rtuSentAt_cases s.cfg hn <;> simp [State.rtuSent, e, RtuSt.offering]

/-- In each stretch the byte offered is the ADU's next (rule R233). -/
theorem State.RtuHolds.rtuTxByte_sent {n : Nat} (hn : n < (rtuAduOf a p).length) (line : List Byte) :
    rtuTxByte (s.rtuSent p.length n line) = .ok (rtuAduOf a p)[n] := by
  rw [length_rtuAduOf] at hn
  obtain ⟨rfl, e⟩ | ⟨k, rfl, hk, e⟩ | ⟨rfl, e⟩ | ⟨rfl, e⟩ := rtuSentAt_cases s.cfg hn
  · simp [rtuTxByte, State.rtuSent, e, h.frameAddress, rtuAduOf, rtuAduBytes]
  · have hst : (s.rtuSent p.length (k + 1) line).rtu.st = .txPdu := congrArg Prod.fst e
    have hindex : (s.rtuSent p.length (k + 1) line).rtu.txIndex = k := congrArg Prod.snd e
    have hread : (s.rtuSent p.length (k + 1) line).bufRead .rtu k = .ok p[k] := by
      refine bufRead_of_written (Nat.lt_of_lt_of_le hk h.room) ?_
      have := Memory.read_of_readRange _ _ _ k _ h.buf hk
      rwa [Nat.zero_add, List.getElem?_eq_getElem hk] at this
    have hbyte : (rtuAduOf a p)[k + 1] = p[k] := by simp [rtuAduOf, rtuAduBytes, List.getElem_append_left hk]
    simp only [rtuTxByte, hst, hindex, hread, hbyte]
  · simp [rtuTxByte, State.rtuSent, e, h.txCrc, rtuAduOf, rtuAduBytes]
  · simp [rtuTxByte, State.rtuSent, e, h.txCrc, rtuAduOf, rtuAduBytes]

theorem State.RtuHolds.rtuTxAccepted_sent {n : Nat} (hn : n < (rtuAduOf a p).length) (line : List Byte) (b : Byte) :
    rtuTxAccepted b (s.rtuSent p.length n line) = s.rtuSent p.length (n + 1) (line ++ [b]) := by
  have hadvance := rtuTxAdvance_sentAt s.cfg h.bufferLen h.pos (length_rtuAduOf a p ▸ hn)
  simp only [rtuTxAccepted, State.rtuSent, hadvance, List.append_assoc]

/-- The loop from `m` bytes accepted before (rule R233). -/
theorem State.RtuHolds.rtuTxLoop_sent (env : Inputs) {m fuel : Nat} {rest : List Byte}
    (hrest : (rtuAduOf a p).drop m = rest) (hm : m ≤ (rtuAduOf a p).length) (hfuel : rest.length ≤ fuel) :
    rtuTxLoop env fuel env.txAccept (s.rtuSent p.length m []) =
      if env.accepted rest.length < rest.length then
        if env.txError then
          rtuWriteError (s.rtuSent p.length (m + env.accepted rest.length) (rest.take (env.accepted rest.length)))
        else s.rtuSent p.length (m + env.accepted rest.length) (rest.take (env.accepted rest.length))
      else s.rtuSent p.length (rtuAduOf a p).length rest := by
  have hlen : m + rest.length = (rtuAduOf a p).length := by rw [← hrest, List.length_drop]; omega
  have hstep (fuel : Nat) (left : Option Nat) (j : Nat) (hj : j < rest.length) :
      rtuTxLoop env (fuel + 1) left (s.rtuSent p.length (m + j) (rest.take j)) =
      if left = some 0 then
        if env.txError then rtuWriteError (s.rtuSent p.length (m + j) (rest.take j))
        else s.rtuSent p.length (m + j) (rest.take j)
      else rtuTxLoop env fuel (offersLeft left) (s.rtuSent p.length (m + (j + 1)) (rest.take (j + 1))) := by
    have hn : m + j < (rtuAduOf a p).length := by omega
    have hbyte : (rtuAduOf a p)[m + j] = rest[j] := by simp [← hrest]
    rw [rtuTxLoop_turn (offering_rtuSent hn _) (h.rtuTxByte_sent hn _), h.rtuTxAccepted_sent hn, hbyte,
      List.take_concat_get', Nat.add_assoc]
  have hend (fuel : Nat) (left : Option Nat) :
      rtuTxLoop env fuel left (s.rtuSent p.length (m + rest.length) (rest.take rest.length)) =
        s.rtuSent p.length (m + rest.length) (rest.take rest.length) := by
    cases fuel with
    | zero => rfl
    | succ fuel => rw [rtuTxLoop, if_neg (by simp [State.rtuSent, hlen, rtuSentAt_end, RtuSt.offering])]
  have hloop := offers_of_steps (σ := fun j => s.rtuSent p.length (m + j) (rest.take j)) hstep hend rest.length 0 fuel
    env.txAccept (Nat.zero_add _) hfuel
  simpa [hlen] using hloop

/-- The transmit progress from `m` bytes accepted before (rules R233, R234, R236). -/
theorem State.RtuHolds.rtuTxProgress_sent {m : Nat} (hm : m ≤ (rtuAduOf a p).length) :
    rtuTxProgress s.inputs (s.rtuSent p.length m []) = s.rtuOffered m a p := by
  generalize hrest : (rtuAduOf a p).drop m = rest
  have hlen : m + rest.length = p.length + 3 := by
    rw [← hrest, List.length_drop, Nat.add_sub_cancel' hm, length_rtuAduOf]
  have hfuel : rest.length ≤ rtuTxFuel s.cfg := by
    have := h.room
    rw [rtuTxFuel]; omega
  have hloop := h.rtuTxLoop_sent s.inputs hrest hm hfuel
  have hf (n : Nat) (line : List Byte) : (s.rtuSent p.length n line).fault = none := h.fault
  rw [rtuTxProgress, show rtuTxLoop s.inputs (rtuTxFuel (s.rtuSent p.length m []).cfg) _ _ = _ from hloop,
    State.rtuOffered, hrest]
  by_cases hk : s.inputs.accepted rest.length < rest.length
  · have hdrain : (s.rtuSent p.length (m + s.inputs.accepted rest.length)
        (rest.take (s.inputs.accepted rest.length))).rtu.st ≠ .txDrain := fun e => by
      have hn : m + s.inputs.accepted rest.length < (rtuAduOf a p).length := by rw [length_rtuAduOf]; omega
      have := offering_rtuSent (s := s) hn (rest.take (s.inputs.accepted rest.length))
      rw [e] at this
      exact absurd this (by decide)
    simp only [if_pos hk]
    by_cases hx : s.inputs.txError = true
    · rw [if_pos hx, if_pos hx, State.andThen_of_ok _ (by exact h.fault), if_neg (by exact nofun)]
      rfl
    · rw [if_neg hx, if_neg hx, State.andThen_of_ok _ (hf ..), if_neg hdrain]
      rfl
  · have hall : s.inputs.accepted rest.length = rest.length := by have := accepted_le s.inputs rest.length; omega
    have hst : (s.rtuSent p.length (rtuAduOf a p).length rest).rtu.st = .txDrain := by
      rw [length_rtuAduOf]; exact congrArg Prod.fst (rtuSentAt_end ..)
    simp only [if_neg hk]
    simp only [hall, List.take_length, hlen]
    rw [State.andThen_of_ok _ (hf ..), if_pos hst, rtuDrainCheck, length_rtuAduOf]
    rfl

end Rtu

end Sys2Proof.Machine
end

section
/-! PROOFS. The ASCII framer's transmit progress in closed form (rules R322, R323, R325, R326). -/

namespace Sys2Proof.Machine

/-! ### The stretches of a transmission (rule R322) -/

section SentAt

variable {len k : Nat}

theorem ascSentAt_pduHigh (hk : k < len) : ascSentAt len (3 + 2 * k) = (.txPduHigh, k) := by
  rw [ascSentAt, if_neg (by omega), if_neg (by omega), if_neg (by omega), if_pos (by omega), if_pos (by omega),
    show (3 + 2 * k - 3) / 2 = k by omega]

theorem ascSentAt_pduLow (hk : k < len) : ascSentAt len (4 + 2 * k) = (.txPduLow, k) := by
  rw [ascSentAt, if_neg (by omega), if_neg (by omega), if_neg (by omega), if_pos (by omega), if_neg (by omega),
    show (4 + 2 * k - 3) / 2 = k by omega]

theorem ascSentAt_lrcHigh : ascSentAt len (3 + 2 * len) = (.txLrcHigh, len) := by
  rw [ascSentAt, if_neg (by omega), if_neg (by omega), if_neg (by omega), if_neg (by omega), if_pos rfl]

theorem ascSentAt_lrcLow : ascSentAt len (4 + 2 * len) = (.txLrcLow, len) := by
  rw [ascSentAt, if_neg (by omega), if_neg (by omega), if_neg (by omega), if_neg (by omega), if_neg (by omega), if_pos rfl]

theorem ascSentAt_cr : ascSentAt len (5 + 2 * len) = (.txCr, len) := by
  rw [ascSentAt, if_neg (by omega), if_neg (by omega), if_neg (by omega), if_neg (by omega), if_neg (by omega),
    if_neg (by omega), if_pos rfl]

theorem ascSentAt_lf : ascSentAt len (6 + 2 * len) = (.txLf, len) := by
  rw [ascSentAt, if_neg (by omega), if_neg (by omega), if_neg (by omega), if_neg (by omega), if_neg (by omega),
    if_neg (by omega), if_neg (by omega), if_pos rfl]

theorem ascSentAt_end : ascSentAt len (7 + 2 * len) = (.txWait, len) := by
  rw [ascSentAt, if_neg (by omega), if_neg (by omega), if_neg (by omega), if_neg (by omega), if_neg (by omega),
    if_neg (by omega), if_neg (by omega), if_neg (by omega)]

end SentAt

/-- How many characters have been accepted in each of the offering states, and `tx_index` there (rule R323). -/
inductive AscOffers (len : Nat) : Nat → AscSt → Nat → Prop
  | sof : AscOffers len 0 .txSof 0
  | addrHigh : AscOffers len 1 .txAddrHigh 0
  | addrLow : AscOffers len 2 .txAddrLow 0
  | pduHigh {k : Nat} (hk : k < len) : AscOffers len (3 + 2 * k) .txPduHigh k
  | pduLow {k : Nat} (hk : k < len) : AscOffers len (4 + 2 * k) .txPduLow k
  | lrcHigh : AscOffers len (3 + 2 * len) .txLrcHigh len
  | lrcLow : AscOffers len (4 + 2 * len) .txLrcLow len
  | cr : AscOffers len (5 + 2 * len) .txCr len
  | lf : AscOffers len (6 + 2 * len) .txLf len

/-- Every state before the end is one of them. -/
theorem exists_ascOffers {len n : Nat} (hn : n < 2 * len + 7) :
    ∃ st i, AscOffers len n st i ∧ ascSentAt len n = (st, i) := by
  obtain rfl | rfl | rfl | h : n = 0 ∨ n = 1 ∨ n = 2 ∨ 3 ≤ n := by omega
  · exact ⟨_, _, .sof, rfl⟩
  · exact ⟨_, _, .addrHigh, rfl⟩
  · exact ⟨_, _, .addrLow, rfl⟩
  obtain ⟨k, rfl | rfl⟩ : ∃ k, n = 3 + 2 * k ∨ n = 4 + 2 * k := ⟨(n - 3) / 2, by omega⟩
  · obtain hk | rfl | rfl : k < len ∨ k = len ∨ k = len + 1 := by omega
    · exact ⟨_, _, .pduHigh hk, ascSentAt_pduHigh hk⟩
    · exact ⟨_, _, .lrcHigh, ascSentAt_lrcHigh⟩
    · rw [show 3 + 2 * (len + 1) = 5 + 2 * len by omega]
      exact ⟨_, _, .cr, ascSentAt_cr⟩
  · obtain hk | rfl | rfl : k < len ∨ k = len ∨ k = len + 1 := by omega
    · exact ⟨_, _, .pduLow hk, ascSentAt_pduLow hk⟩
    · exact ⟨_, _, .lrcLow, ascSentAt_lrcLow⟩
    · rw [show 4 + 2 * (len + 1) = 6 + 2 * len by omega]
      exact ⟨_, _, .lf, ascSentAt_lf⟩

/-- An accepted character moves the registers on (rule R323). -/
theorem ascTxAdvance_of_offers {f : AscFramer} {len n i : Nat} {st : AscSt} (hf : f.bufferLen = len) (hpos : 1 ≤ len)
    (h : AscOffers len n st i) : ascTxAdvance { f with st := st, txIndex := i } =
      { f with st := (ascSentAt len (n + 1)).1, txIndex := (ascSentAt len (n + 1)).2 } := by
  cases h with
  | sof | addrHigh => rfl
  | addrLow => rw [show 2 + 1 = 3 + 2 * 0 from rfl, ascSentAt_pduHigh hpos]; rfl
  | pduHigh hk => rw [show 3 + 2 * i + 1 = 4 + 2 * i by omega, ascSentAt_pduLow hk]; rfl
  | pduLow hk =>
    obtain rfl | hlast : i + 1 = len ∨ i + 1 < len := by omega
    · rw [show 4 + 2 * i + 1 = 3 + 2 * (i + 1) by omega, ascSentAt_lrcHigh]
      simp [ascTxAdvance, hf]
    · rw [show 4 + 2 * i + 1 = 3 + 2 * (i + 1) by omega, ascSentAt_pduHigh hlast]
      simp [ascTxAdvance, hf, hlast.ne]
  | lrcHigh => rw [show 3 + 2 * len + 1 = 4 + 2 * len by omega, ascSentAt_lrcLow]; rfl
  | lrcLow => rw [show 4 + 2 * len + 1 = 5 + 2 * len by omega, ascSentAt_cr]; rfl
  | cr => rw [show 5 + 2 * len + 1 = 6 + 2 * len by omega, ascSentAt_lf]; rfl
  | lf => rw [show 6 + 2 * len + 1 = 7 + 2 * len by omega, ascSentAt_end]; rfl

theorem AscOffers.offering {len n i : Nat} {st : AscSt} (h : AscOffers len n st i) : st.offering = true := by
  cases h <;> rfl

/-! ### The characters of the ADU -/

@[simp] theorem length_asciiAduOf (a : Byte) (p : List Byte) : (asciiAduOf a p).length = 2 * p.length + 7 := by
  simp [asciiAduOf, asciiAduChars]
  omega

/-- The two characters of byte `k`. -/
theorem getElem?_hexOfBytes : ∀ (bs : List Byte) (k : Nat),
    (hexOfBytes bs)[2 * k]? = bs[k]?.map (fun b => hexchar (highNibble b)) ∧
    (hexOfBytes bs)[2 * k + 1]? = bs[k]?.map (fun b => hexchar (lowNibble b))
  | [], _ => by simp [hexOfBytes]
  | b :: bs, 0 => by simp [hexOfBytes]
  | b :: bs, k + 1 => by simpa [hexOfBytes, Nat.mul_add] using getElem?_hexOfBytes bs k

/-- The characters of byte `k` behind the address, the LRC being the last of these bytes. -/
theorem getElem?_asciiAduOf (a : Byte) {p : List Byte} {k : Nat} (hk : k ≤ p.length) :
    (asciiAduOf a p)[3 + 2 * k]? = (p ++ [lrcOf a p])[k]?.map (fun b => hexchar (highNibble b)) ∧
    (asciiAduOf a p)[4 + 2 * k]? = (p ++ [lrcOf a p])[k]?.map (fun b => hexchar (lowNibble b)) := by
  obtain ⟨hhigh, hlow⟩ := getElem?_hexOfBytes (a :: (p ++ [lrcOf a p])) (k + 1)
  have hin {i : Nat} (hi : i < 2 * (p.length + 2)) :
      (asciiAduOf a p)[i + 1]? = (hexOfBytes (a :: (p ++ [lrcOf a p])))[i]? :=
    List.getElem?_append_left (by simpa [Nat.add_assoc] using hi)
  rw [show 3 + 2 * k = 2 * (k + 1) + 1 by omega, show 4 + 2 * k = 2 * (k + 1) + 1 + 1 by omega, hin (by omega),
    hin (by omega), hhigh, hlow]
  exact ⟨rfl, rfl⟩

/-- CR and LF. -/
theorem getElem?_asciiAduOf_behind (a : Byte) (p : List Byte) :
    (asciiAduOf a p)[5 + 2 * p.length]? = some chCr ∧ (asciiAduOf a p)[6 + 2 * p.length]? = some chLf := by
  have hlen : (chColon :: hexOfBytes (a :: (p ++ [lrcOf a p]))).length = 5 + 2 * p.length := by simp; omega
  have hsplit : asciiAduOf a p = (chColon :: hexOfBytes (a :: (p ++ [lrcOf a p]))) ++ [chCr, chLf] := rfl
  rw [hsplit, List.getElem?_append_right hlen.le, List.getElem?_append_right (hlen.le.trans (by omega)), hlen,
    Nat.sub_self, show 6 + 2 * p.length - (5 + 2 * p.length) = 1 by omega]
  exact ⟨rfl, rfl⟩

/-! ### The loop -/

/-- One turn of the loop (rule R323). -/
theorem ascTxLoop_turn {env : Inputs} {fuel : Nat} {left : Option Nat} {t : State} {c : Byte}
    (ho : t.asc.st.offering = true) (hc : ascTxChar t = .ok c) : ascTxLoop env (fuel + 1) left t =
      if left = some 0 then if env.txError then ascWriteError t else t
      else ascTxLoop env fuel (offersLeft left) (ascTxAccepted c t) := by
  rw [ascTxLoop, if_pos ho, hc]
  by_cases hzero : left = some 0
  · subst hzero
    cases hx : env.txError <;> simp [streamWrite, hx]
  · simp only [streamWrite_of_ne env hzero, hzero, if_false]

/-- The ASCII framer holds the PDU `p` for station `a`, and its LRC (rule R321). -/
structure State.AscHolds (a : Byte) (p : List Byte) (s : State) : Prop where
  fault : s.fault = none
  frameAddress : s.asc.frameAddress = a
  bufferLen : s.asc.bufferLen = p.length
  buf : s.asc.buf.readRange 0 p.length = some p
  txLrc : s.asc.txLrc = lrcOf a p
  pos : 1 ≤ p.length
  room : p.length ≤ s.cfg.bufferMax

/-- `n` characters of the ADU of a PDU of `len` bytes have been accepted, `line` of them in this command. -/
def State.ascSent (len n : Nat) (line : List Byte) (s : State) : State :=
  { s with ascLine := s.ascLine ++ line
           asc := { s.asc with st := (ascSentAt len n).1, txIndex := (ascSentAt len n).2 } }

section Ascii

variable {a : Byte} {p : List Byte} {s : State}

/-- The ADU is not yet sent whole. -/
theorem offering_ascSent {n : Nat} (hn : n < (asciiAduOf a p).length) (line : List Byte) :
    (s.ascSent p.length n line).asc.st.offering = true := by
  obtain ⟨st, i, ho, e⟩ := exists_ascOffers (length_asciiAduOf a p ▸ hn)
  simp [State.ascSent, e, ho.offering]

variable (h : s.AscHolds a p)
include h

/-- A byte of the PDU in the buffer. -/
theorem State.AscHolds.bufRead_eq {k : Nat} (hk : k < p.length) (n : Nat) (line : List Byte) :
    (s.ascSent p.length n line).bufRead .ascii k = .ok p[k] := by
  refine bufRead_of_written (Nat.lt_of_lt_of_le hk h.room) ?_
  have := Memory.read_of_readRange _ _ _ k _ h.buf hk
  rwa [Nat.zero_add, List.getElem?_eq_getElem hk] at this

/-- In each stretch the character offered is the ADU's next (rule R323). -/
theorem State.AscHolds.ascTxChar_sent {n : Nat} (hn : n < (asciiAduOf a p).length) (line : List Byte) :
    ascTxChar (s.ascSent p.length n line) = .ok (asciiAduOf a p)[n] := by
  obtain ⟨st, i, ho, e⟩ := exists_ascOffers (length_asciiAduOf a p ▸ hn)
  have hst : (s.ascSent p.length n line).asc.st = st := congrArg Prod.fst e
  have hindex : (s.ascSent p.length n line).asc.txIndex = i := congrArg Prod.snd e
  have next {c : Byte} (hc : (asciiAduOf a p)[n]? = some c) : (asciiAduOf a p)[n] = c :=
    (List.getElem_eq_iff hn).2 hc
  have hpdu {k : Nat} (hk : k < p.length) : (p ++ [lrcOf a p])[k]? = some p[k] := by
    rw [List.getElem?_append_left hk, List.getElem?_eq_getElem hk]
  have hlrc : (p ++ [lrcOf a p])[p.length]? = some (lrcOf a p) := by simp
  rw [ascTxChar, hst]
  cases ho with
  | sof => rfl
  | addrHigh => exact congrArg (fun b => Except.ok (hexchar (highNibble b))) h.frameAddress
  | addrLow => exact congrArg (fun b => Except.ok (hexchar (lowNibble b))) h.frameAddress
  | pduHigh hk =>
    rw [hindex, h.bufRead_eq hk, next (by rw [(getElem?_asciiAduOf a hk.le).1, hpdu hk]; rfl)]; rfl
  | pduLow hk =>
    rw [hindex, h.bufRead_eq hk, next (by rw [(getElem?_asciiAduOf a hk.le).2, hpdu hk]; rfl)]; rfl
  | lrcHigh =>
    rw [next (by rw [(getElem?_asciiAduOf a le_rfl).1, hlrc]; rfl)]
    exact congrArg (fun b => Except.ok (hexchar (highNibble b))) h.txLrc
  | lrcLow =>
    rw [next (by rw [(getElem?_asciiAduOf a le_rfl).2, hlrc]; rfl)]
    exact congrArg (fun b => Except.ok (hexchar (lowNibble b))) h.txLrc
  | cr => rw [next (getElem?_asciiAduOf_behind a p).1]
  | lf => rw [next (getElem?_asciiAduOf_behind a p).2]

theorem State.AscHolds.ascTxAccepted_sent {n : Nat} (hn : n < (asciiAduOf a p).length) (line : List Byte) (c : Byte) :
    ascTxAccepted c (s.ascSent p.length n line) = s.ascSent p.length (n + 1) (line ++ [c]) := by
  obtain ⟨st, i, ho, e⟩ := exists_ascOffers (length_asciiAduOf a p ▸ hn)
  have hadvance := ascTxAdvance_of_offers h.bufferLen h.pos ho
  simp only [ascTxAccepted, State.ascSent, e, hadvance, List.append_assoc]

/-- The loop from `m` characters accepted before (rule R323). -/
theorem State.AscHolds.ascTxLoop_sent (env : Inputs) {m fuel : Nat} {rest : List Byte}
    (hrest : (asciiAduOf a p).drop m = rest) (hm : m ≤ (asciiAduOf a p).length) (hfuel : rest.length ≤ fuel) :
    ascTxLoop env fuel env.txAccept (s.ascSent p.length m []) =
      if env.accepted rest.length < rest.length then
        if env.txError then
          ascWriteError (s.ascSent p.length (m + env.accepted rest.length) (rest.take (env.accepted rest.length)))
        else s.ascSent p.length (m + env.accepted rest.length) (rest.take (env.accepted rest.length))
      else s.ascSent p.length (asciiAduOf a p).length rest := by
  have hlen : m + rest.length = (asciiAduOf a p).length := by rw [← hrest, List.length_drop]; omega
  have hstep (fuel : Nat) (left : Option Nat) (j : Nat) (hj : j < rest.length) :
      ascTxLoop env (fuel + 1) left (s.ascSent p.length (m + j) (rest.take j)) =
      if left = some 0 then
        if env.txError then ascWriteError (s.ascSent p.length (m + j) (rest.take j))
        else s.ascSent p.length (m + j) (rest.take j)
      else ascTxLoop env fuel (offersLeft left) (s.ascSent p.length (m + (j + 1)) (rest.take (j + 1))) := by
    have hn : m + j < (asciiAduOf a p).length := by omega
    have hchar : (asciiAduOf a p)[m + j] = rest[j] := by simp [← hrest]
    rw [ascTxLoop_turn (offering_ascSent hn _) (h.ascTxChar_sent hn _), h.ascTxAccepted_sent hn, hchar,
      List.take_concat_get', Nat.add_assoc]
  have hend (fuel : Nat) (left : Option Nat) :
      ascTxLoop env fuel left (s.ascSent p.length (m + rest.length) (rest.take rest.length)) =
        s.ascSent p.length (m + rest.length) (rest.take rest.length) := by
    cases fuel with
    | zero => rfl
    | succ fuel =>
      rw [ascTxLoop, if_neg]
      simp [State.ascSent, hlen, Nat.add_comm (2 * _), ascSentAt_end, AscSt.offering]
  have hloop := offers_of_steps (σ := fun j => s.ascSent p.length (m + j) (rest.take j)) hstep hend rest.length 0 fuel
    env.txAccept (Nat.zero_add _) hfuel
  simpa [hlen] using hloop

/-- The transmit progress from `m` characters accepted before (rules R323, R325, R326). -/
theorem State.AscHolds.ascTxProgress_sent {m : Nat} (hm : m ≤ (asciiAduOf a p).length) :
    ascTxProgress s.inputs (s.ascSent p.length m []) = s.ascOffered m a p := by
  generalize hrest : (asciiAduOf a p).drop m = rest
  have hlen : m + rest.length = 7 + 2 * p.length := by
    rw [← hrest, List.length_drop, Nat.add_sub_cancel' hm, length_asciiAduOf, Nat.add_comm]
  have hfuel : rest.length ≤ ascTxFuel s.cfg := by
    have := h.room
    rw [ascTxFuel]; omega
  have hloop := h.ascTxLoop_sent s.inputs hrest hm hfuel
  have hf (n : Nat) (line : List Byte) : (s.ascSent p.length n line).fault = none := h.fault
  rw [ascTxProgress, show ascTxLoop s.inputs (ascTxFuel (s.ascSent p.length m []).cfg) _ _ = _ from hloop,
    State.ascOffered, hrest]
  by_cases hk : s.inputs.accepted rest.length < rest.length
  · have hwait : (s.ascSent p.length (m + s.inputs.accepted rest.length)
        (rest.take (s.inputs.accepted rest.length))).asc.st ≠ .txWait := fun e => by
      have hn : m + s.inputs.accepted rest.length < (asciiAduOf a p).length := by rw [length_asciiAduOf]; omega
      have := offering_ascSent (s := s) hn (rest.take (s.inputs.accepted rest.length))
      rw [e] at this
      exact absurd this (by decide)
    simp only [if_pos hk]
    by_cases hx : s.inputs.txError = true
    · rw [if_pos hx, if_pos hx, State.andThen_of_ok _ (by exact h.fault), if_neg (by exact nofun)]
      rfl
    · rw [if_neg hx, if_neg hx, State.andThen_of_ok _ (hf ..), if_neg hwait]
      rfl
  · have hall : s.inputs.accepted rest.length = rest.length := by have := accepted_le s.inputs rest.length; omega
    have hsent : (asciiAduOf a p).length = 7 + 2 * p.length := by rw [length_asciiAduOf, Nat.add_comm]
    have hst : (s.ascSent p.length (7 + 2 * p.length) rest).asc.st = .txWait := congrArg Prod.fst ascSentAt_end
    simp only [if_neg hk]
    simp only [hall, List.take_length, hlen, hsent]
    rw [State.andThen_of_ok _ (hf ..), if_pos hst, ascDrainCheck]
    rfl

end Ascii

end Sys2Proof.Machine
end

section
/-! PROOFS. A request of the master engine in closed form (rules R410 to R413), and the request PDUs of the table (rules R148,
R152). -/

namespace Sys2Proof.Machine

/-! ### The common request procedure -/

/-- A transmission writes its framer, the line and the events only; what stands elsewhere may be written before or after. -/
theorem State.rtuOffered_with {s : State} {m : Nat} {a : Byte} {p : List Byte} (st : RtuSt) (i : Nat) (e : Master)
    (r : Result) :
    State.rtuOffered m a p { s with rtu := { s.rtu with st := st, txIndex := i }, mst := e, result := r } =
      { s.rtuOffered m a p with mst := e, result := r } := by
  simp only [State.rtuOffered]
  split_ifs <;> rfl

theorem State.ascOffered_with {s : State} {m : Nat} {a : Byte} {p : List Byte} (st : AscSt) (i : Nat) (e : Master)
    (r : Result) :
    State.ascOffered m a p { s with asc := { s.asc with st := st, txIndex := i }, mst := e, result := r } =
      { s.ascOffered m a p with mst := e, result := r } := by
  simp only [State.ascOffered]
  split_ifs <;> rfl

theorem State.rtuOffered_cfg (m : Nat) (a : Byte) (p : List Byte) (s : State) : (s.rtuOffered m a p).cfg = s.cfg := by
  simp only [State.rtuOffered]
  split_ifs <;> rfl

theorem State.ascOffered_cfg (m : Nat) (a : Byte) (p : List Byte) (s : State) : (s.ascOffered m a p).cfg = s.cfg := by
  simp only [State.ascOffered]
  split_ifs <;> rfl

theorem State.rtuOffered_fault (m : Nat) (a : Byte) (p : List Byte) (s : State) :
    (s.rtuOffered m a p).fault = s.fault := by
  simp only [State.rtuOffered]
  split_ifs <;> rfl

theorem State.ascOffered_fault (m : Nat) (a : Byte) (p : List Byte) (s : State) :
    (s.ascOffered m a p).fault = s.fault := by
  simp only [State.ascOffered]
  split_ifs <;> rfl

/-- Nothing sent yet. -/
theorem State.rtuSent_zero {s : State} (len : Nat) (hst : s.rtu.st = .txAddr) (hi : s.rtu.txIndex = 0) :
    s.rtuSent len 0 [] = s := by
  simp [State.rtuSent, rtuSentAt, ← hst, ← hi]

theorem State.ascSent_zero {s : State} (len : Nat) (hst : s.asc.st = .txSof) (hi : s.asc.txIndex = 0) :
    s.ascSent len 0 [] = s := by
  simp [State.ascSent, ascSentAt, ← hst, ← hi]

/-- The PDU of a request and its CRC in the RTU framer (rules R230, R410). -/
def State.rtuLoaded (slave : Byte) (pdu : List Byte) (s : State) : State :=
  { s with rtu := { s.rtu with buf := s.rtu.buf.writeList 0 pdu, bufferLen := pdu.length, frameAddress := slave
                               txCrc := crc16 (slave :: pdu), txen := true } }

/-- The PDU of a request and its LRC in the ASCII framer (rules R321, R410). -/
def State.ascLoaded (slave : Byte) (pdu : List Byte) (s : State) : State :=
  { s with asc := { s.asc with buf := s.asc.buf.writeList 0 pdu, bufferLen := pdu.length, frameAddress := slave
                               txLrc := lrcOf slave pdu, txen := true } }

section Request

variable {s : State} {slave : Byte} {p : RequestPlan} (hf : s.fault = none) (hpos : 1 ≤ p.pdu.length)
  (hcap : p.pdu.length ≤ cap s.cfg)
include hf hpos hcap

/-- A request that passed its checks, on the RTU framer (rules R410, R412, R413). -/
theorem sendRequest_rtu : sendRequest s.inputs .rtu slave p s =
    s.requested .rtu slave p.pdu p.readAddress p.writeAddress p.writeCount := by
  generalize ht : State.setContext slave p (State.loadPdu .rtu slave p.pdu (s.enterQueue .rtu)) = t
  have hread : (t.buf .rtu).readRange 0 (t.bufferLen .rtu) = some p.pdu := by
    rw [← ht]; exact Memory.readRange_writeList p.pdu s.rtu.buf 0
  have hholds : (rtuStartSend p.pdu t).RtuHolds slave p.pdu := by
    subst ht; exact ⟨hf, rfl, rfl, hread, rfl, hpos, hcap.trans (cap_le s.cfg).1⟩
  have hprogress := hholds.rtuTxProgress_sent (Nat.zero_le _)
  rw [State.rtuSent_zero _ rfl rfl] at hprogress
  have htransmit : framerTransmit s.inputs .rtu t = (rtuStartSend p.pdu t).rtuOffered 0 slave p.pdu := by
    rw [framerTransmit, hread, ← hprogress, ← ht]; rfl
  have hfault : ((rtuStartSend p.pdu t).rtuOffered 0 slave p.pdu).fault = none := by
    rw [State.rtuOffered_fault]; exact hholds.fault
  rw [sendRequest, ht, htransmit, State.andThen_of_ok _ hfault, ← ht]
  have hwith := State.rtuOffered_with (s := s.rtuLoaded slave p.pdu) (m := 0) (a := slave) (p := p.pdu) .txAddr 0
    (State.setContext slave p s).mst s.result
  have hnow : nowTick ((s.rtuLoaded slave p.pdu).rtuOffered 0 slave p.pdu).cfg s.inputs = s.now := by
    rw [State.rtuOffered_cfg]; rfl
  refine (congrArg (fun t => State.answer (.bool true)
    { t with mst := { t.mst with stamp := nowTick t.cfg s.inputs, st := requestedSt slave } }) hwith).trans ?_
  dsimp only
  rw [hnow]
  rfl

/-- The same on the ASCII framer. -/
theorem sendRequest_ascii : sendRequest s.inputs .ascii slave p s =
    s.requested .ascii slave p.pdu p.readAddress p.writeAddress p.writeCount := by
  generalize ht : State.setContext slave p (State.loadPdu .ascii slave p.pdu (s.enterQueue .ascii)) = t
  have hread : (t.buf .ascii).readRange 0 (t.bufferLen .ascii) = some p.pdu := by
    rw [← ht]; exact Memory.readRange_writeList p.pdu s.asc.buf 0
  have hholds : (ascStartSend p.pdu t).AscHolds slave p.pdu := by
    subst ht; exact ⟨hf, rfl, rfl, hread, rfl, hpos, hcap.trans (cap_le s.cfg).1⟩
  have hprogress := hholds.ascTxProgress_sent (Nat.zero_le _)
  rw [State.ascSent_zero _ rfl rfl] at hprogress
  have htransmit : framerTransmit s.inputs .ascii t = (ascStartSend p.pdu t).ascOffered 0 slave p.pdu := by
    rw [framerTransmit, hread, ← hprogress, ← ht]; rfl
  have hfault : ((ascStartSend p.pdu t).ascOffered 0 slave p.pdu).fault = none := by
    rw [State.ascOffered_fault]; exact hholds.fault
  rw [sendRequest, ht, htransmit, State.andThen_of_ok _ hfault, ← ht]
  have hwith := State.ascOffered_with (s := s.ascLoaded slave p.pdu) (m := 0) (a := slave) (p := p.pdu) .txSof 0
    (State.setContext slave p s).mst s.result
  have hnow : nowTick ((s.ascLoaded slave p.pdu).ascOffered 0 slave p.pdu).cfg s.inputs = s.now := by
    rw [State.ascOffered_cfg]; rfl
  refine (congrArg (fun t => State.answer (.bool true)
    { t with mst := { t.mst with stamp := nowTick t.cfg s.inputs, st := requestedSt slave } }) hwith).trans ?_
  dsimp only
  rw [hnow]
  rfl

end Request

/-- The result that stood before a request is overwritten. -/
theorem State.requested_answer (u : FramerKind) (slave : Byte) (pdu : List Byte) (ra wa wc : Word16) (r : Result)
    (s : State) : (s.answer r).requested u slave pdu ra wa wc = s.requested u slave pdu ra wa wc := by
  cases u
  · exact congrArg (fun t : State => { t with result := .bool true, mst := (s.requested .rtu slave pdu ra wa wc).mst })
      (State.rtuOffered_with (s := s.rtuLoaded slave pdu) (m := 0) (a := slave) (p := pdu) s.rtu.st s.rtu.txIndex s.mst r)
  · exact congrArg (fun t : State => { t with result := .bool true, mst := (s.requested .ascii slave pdu ra wa wc).mst })
      (State.ascOffered_with (s := s.ascLoaded slave pdu) (m := 0) (a := slave) (p := pdu) s.asc.st s.asc.txIndex s.mst r)

/-- BEGIN_SEND succeeds on a free framer (rules R228, R320). -/
theorem State.canBeginSend_of_free {s : State} {u : FramerKind} (h : s.free u) : s.canBeginSend u = true := by
  cases u <;> simpa [State.canBeginSend, State.free] using h

/-- The checks of rule R411 pass. -/
theorem masterRequest_of_takes {env : Inputs} {s : State} {u : FramerKind} {slave : Byte} {p : RequestPlan}
    (h : s.takesRequest u p.pdu.length) (hc : p.countsOk = true) :
    masterRequest env slave p s = sendRequest env u slave p s := by
  obtain ⟨-, hm, hst, hconf, hfree, hcap⟩ := h
  simp [masterRequest, hm, hst, hc, Nat.not_lt.2 hcap, hconf, State.canBeginSend_of_free hfree]

/-- A request that the master engine takes (rule R410). -/
theorem requestCommand_of_takes {s : State} {u : FramerKind} {slave : Byte} {p : RequestPlan}
    (h : s.takesRequest u p.pdu.length) (hc : p.countsOk = true) (hpos : 1 ≤ p.pdu.length) :
    requestCommand slave p s = .next (s.requested u slave p.pdu p.readAddress p.writeAddress p.writeCount) := by
  have hanswer : (s.answer .none).takesRequest u p.pdu.length := by cases u <;> exact h
  have hsend : sendRequest s.inputs u slave p (s.answer .none) =
      (s.answer .none).requested u slave p.pdu p.readAddress p.writeAddress p.writeCount := by
    obtain ⟨hf, -, -, -, -, hcap⟩ := hanswer
    cases u
    · exact sendRequest_rtu hf hpos hcap
    · exact sendRequest_ascii hf hpos hcap
  have hcommand : s.command (fun s => masterRequest s.inputs slave p s) =
      masterRequest s.inputs slave p (s.answer .none) := State.command_of_ok _ h.1
  rw [requestCommand, hcommand, masterRequest_of_takes hanswer hc, hsend, State.requested_answer]

/-! ### The nine request PDUs -/

/-- What the request PDU `i` hands to the common procedure (rules R430 to R438); for the other instructions a plan that
nothing uses. -/
def requestPlan : Instr → RequestPlan
  | .pduReqReadCoils a q => planRead 0x01#8 2000 a q
  | .pduReqReadDiscreteInputs a q => planRead 0x02#8 2000 a q
  | .pduReqReadHoldingRegisters a q => planRead 0x03#8 125 a q
  | .pduReqReadInputRegisters a q => planRead 0x04#8 125 a q
  | .pduReqWriteSingleCoil a v => planWriteSingle 0x05#8 a v
  | .pduReqWriteSingleRegister a v => planWriteSingle 0x06#8 a v
  | .pduReqWriteMultipleCoils a q _ d => planWriteCoils a q d
  | .pduReqWriteMultipleRegisters a q _ values => planWriteRegisters a q values
  | .pduReqReadWriteMultipleRegisters ra rq wa wq _ values => planReadWrite ra rq wa wq values
  | _ => planWriteSingle 0x06#8 0#16 0#16

/-- A request whose operands have a meaning. -/
theorem checkedRequest_of_ok {ok : Bool} (h : ok = true) (slave : Byte) (p : RequestPlan) (s : State) :
    checkedRequest ok slave p s = requestCommand slave p s := by subst h; rfl

/-- A request PDU is the request of its plan to the station that the inputs name. -/
theorem exec_request (s : State) : ∀ i : Instr, portOf i = .request → i.wf = true →
    exec i s = requestCommand s.inputs.address (requestPlan i) s
  | .pduReqReadCoils .., _, _ | .pduReqReadDiscreteInputs .., _, _ | .pduReqReadHoldingRegisters .., _, _
  | .pduReqReadInputRegisters .., _, _ | .pduReqWriteSingleRegister .., _, _ => rfl
  | .pduReqWriteSingleCoil .., _, h | .pduReqWriteMultipleCoils .., _, h | .pduReqWriteMultipleRegisters .., _, h
  | .pduReqReadWriteMultipleRegisters .., _, h => checkedRequest_of_ok h ..

/-- Counts within the limits of rule R440. -/
theorem requestPlan_countsOk : ∀ i : Instr, portOf i = .request → countsInLimits i = true →
    (requestPlan i).countsOk = true
  | .pduReqReadCoils .., _, h | .pduReqReadDiscreteInputs .., _, h | .pduReqReadHoldingRegisters .., _, h
  | .pduReqReadInputRegisters .., _, h | .pduReqWriteMultipleCoils .., _, h
  | .pduReqWriteMultipleRegisters .., _, h => h
  | .pduReqWriteSingleCoil .., _, _ | .pduReqWriteSingleRegister .., _, _ => rfl
  | .pduReqReadWriteMultipleRegisters .., _, h => by
      simpa [requestPlan, planReadWrite, countOk, countsInLimits, and_assoc] using h

/-- A byte count operand is the byte that its value names. -/
theorem ofNat_eq_of_toNat_eq {bc : Byte} {n : Nat} (h : bc.toNat = n) : BitVec.ofNat 8 n = bc := by
  rw [← h, BitVec.ofNat_toNat, BitVec.setWidth_eq]

/-- The coils of the plan are those of the PDU with the unused bits cleared (rule R152). -/
theorem requestPlan_coils_pdu {a q : Word16} {bc : Byte} {d : List Byte}
    (h : (Instr.pduReqWriteMultipleCoils a q bc d).wf = true) :
    (requestPlan (.pduReqWriteMultipleCoils a q bc d)).pdu =
      encode (.pduReqWriteMultipleCoils a q bc (clearUnusedBits q.toNat d)) := by
  have hbc : bc.toNat = coilBytes q := by simp [Instr.wf] at h; omega
  simp [requestPlan, planWriteCoils, encode, ofNat_eq_of_toNat_eq hbc]

/-- Every other request PDU is sent as it is encoded. -/
theorem requestPlan_pdu : ∀ i : Instr, portOf i = .request → i.wf = true →
    (∀ a q bc d, i ≠ .pduReqWriteMultipleCoils a q bc d) → (requestPlan i).pdu = encode i
  | .pduReqReadCoils .., _, _, _ | .pduReqReadDiscreteInputs .., _, _, _ | .pduReqReadHoldingRegisters .., _, _, _
  | .pduReqReadInputRegisters .., _, _, _ | .pduReqWriteSingleCoil .., _, _, _
  | .pduReqWriteSingleRegister .., _, _, _ => rfl
  | .pduReqWriteMultipleCoils .., _, _, h => absurd rfl (h _ _ _ _)
  | .pduReqWriteMultipleRegisters _ q bc _, _, h, _ => by
      have hbc : bc.toNat = 2 * q.toNat := by simp [Instr.wf] at h; omega
      simp [requestPlan, planWriteRegisters, encode, ofNat_eq_of_toNat_eq hbc]
  | .pduReqReadWriteMultipleRegisters _ _ _ wq bc _, _, h, _ => by
      have hbc : bc.toNat = 2 * wq.toNat := by simp [Instr.wf] at h; omega
      simp [requestPlan, planReadWrite, encode, ofNat_eq_of_toNat_eq hbc]

/-- The PDU sent is as long as the one given. -/
theorem length_requestPlan_pdu (i : Instr) (hp : portOf i = .request) (hi : i.wf = true) :
    (requestPlan i).pdu.length = (encode i).length := by
  by_cases hcoils : ∃ a q bc d, i = .pduReqWriteMultipleCoils a q bc d
  · obtain ⟨a, q, bc, d, rfl⟩ := hcoils
    rw [requestPlan_coils_pdu hi]
    simp [encode, pduWriteCoils]
  · push Not at hcoils
    rw [requestPlan_pdu i hp hi hcoils]

theorem encode_request_length_pos (i : Instr) (hp : portOf i = .request) : 1 ≤ (encode i).length := by
  obtain ⟨fc, args, he, -⟩ := requestFields_of_encode i hp
  simp [he]

/-- Settles O51: each request PDU is the plan of a request (`exec_request`), the engine takes it
(`requestCommand_of_takes`), and the plan's PDU and context are those of its row. -/
theorem requestPdusAreSent : Obligations.RequestPdusAreSent := by
  intro u i s hp hi hc ht
  have hlen := length_requestPlan_pdu i hp hi
  have hexec : exec i s = .next (s.requested u s.inputs.address (requestPlan i).pdu (requestPlan i).readAddress
      (requestPlan i).writeAddress (requestPlan i).writeCount) := by
    rw [exec_request s i hp hi]
    exact requestCommand_of_takes (hlen ▸ ht) (requestPlan_countsOk i hp hc)
      (hlen ▸ encode_request_length_pos i hp)
  refine ⟨_, _, _, _, hexec, ?coils, requestPlan_pdu i hp hi, ?read, ?single, ?registers, ?readWrite⟩
  case coils =>
    rintro a q bc d rfl
    exact ⟨requestPlan_coils_pdu hi, rfl, rfl, rfl⟩
  case read => rintro a q (rfl | rfl | rfl | rfl) <;> exact ⟨rfl, rfl, rfl⟩
  case single => rintro a v (rfl | rfl) <;> exact ⟨rfl, rfl, rfl⟩
  case registers => rintro a q bc vs rfl; exact ⟨rfl, rfl, rfl⟩
  case readWrite => rintro a q w n bc vs rfl; exact ⟨rfl, rfl, rfl⟩

end Sys2Proof.Machine
end

section
/-! PROOFS. The invariants of the framers' registers (rules R242, R328), under each write that a command makes of them. -/

namespace Sys2Proof.Machine

/-! ### Bytes once written -/

/-- A range that holds values holds values after any write. -/
theorem Memory.exists_readRange_write {m : Memory} {i n : Nat} {p : List Byte} (h : m.readRange i n = some p) (j : Nat)
    (v : Byte) : ∃ q, (m.write j v).readRange i n = some q := by
  refine Option.ne_none_iff_exists'.1 fun hnone => ?_
  obtain ⟨k, hk, hread⟩ := (Memory.readRange_eq_none ..).1 hnone
  have hj : i + k ≠ j := by rintro rfl; simp at hread
  rw [Memory.read_write_other _ _ hj] at hread
  exact absurd ((Memory.readRange_eq_none ..).2 ⟨k, hk, hread⟩) (by simp [h])

theorem one_le_cap {c : Config} (h : c.wf = true) : 1 ≤ cap c := by
  obtain ⟨-, h1, -⟩ := (Config.wf_iff c).1 h
  simp only [cap]; omega

/-! ### RTU -/

section Rtu

variable {c : Config} {r : RtuFramer} (h : RtuInv c r)
include h

theorem RtuInv.configured_of_ne (hst : r.st ≠ .idle) : r.configured = true := by
  by_contra hc
  exact hst (h.unconfigured (by simpa using hc))

theorem RtuInv.restamp {l : Nat} (hl : l < tickModulus c) : RtuInv c { r with last := l } := { h with lastTick := hl }

/-- The framer goes to `idle` or `dump` with an empty buffer. -/
theorem RtuInv.cleared {st : RtuSt} {n l : Nat} {txen : Bool} (hc : r.configured = true) (hx : r.st ≠ .exception)
    (hst : st = .idle ∨ st = .dump) (hn : n = 0) (hl : l < tickModulus c) (htx : txen = false) :
    RtuInv c { r with st := st, bufferLen := n, last := l, txen := txen } := by
  obtain rfl | rfl := hst <;> exact { h with
    lenCap := hn ▸ Nat.zero_le _, lastTick := hl, unconfigured := by simp [hc], timed := fun hc _ => h.timed hc hx
    empty := fun _ => hn, counted := nofun, delayed := nofun, checked := nofun, enabled := htx, sending := nofun
    sendAddr := nofun, sendPdu := nofun, sendCrc := nofun, ready := by simp }

/-- The framer holds a frame for its host. -/
theorem RtuInv.held_for_host {st : RtuSt} {m : Memory} (hc : r.configured = true) (hx : r.st ≠ .exception)
    (hst : st = .frameReady ∨ st = .collision) (hwf : m.wf = true) (hbound : ∀ cell ∈ m, cell.1 < c.bufferMax)
    (htx : r.txen = false)
    (hready : c.minPdu ≤ r.bufferLen ∧ ∃ p, m.readRange 0 r.bufferLen = some p) :
    RtuInv c { r with st := st, buf := m } := by
  obtain rfl | rfl := hst <;> exact { h with
    bufWf := hwf, bufBound := hbound, unconfigured := by simp [hc], timed := fun hc _ => h.timed hc hx, empty := by simp
    counted := nofun, delayed := nofun, checked := nofun, enabled := htx, sending := nofun, sendAddr := nofun
    sendPdu := nofun, sendCrc := nofun, ready := fun _ => hready }

/-- The framer is in `queue`, whatever its host has put into the frame. -/
theorem RtuInv.queued {st : RtuSt} {m : Memory} {a : Byte} {n : Nat} (hc : r.configured = true) (hx : r.st ≠ .exception)
    (hst : st = .queue) (hwf : m.wf = true) (hbound : ∀ cell ∈ m, cell.1 < c.bufferMax) (hn : n ≤ cap c)
    (htx : r.txen = false) : RtuInv c { r with st := st, buf := m, frameAddress := a, bufferLen := n } := by
  subst hst
  exact { h with
    bufWf := hwf, bufBound := hbound, lenCap := hn, unconfigured := by simp [hc], timed := fun hc _ => h.timed hc hx
    empty := by simp, counted := nofun, delayed := nofun, checked := nofun, enabled := htx, sending := nofun
    sendAddr := nofun, sendPdu := nofun, sendCrc := nofun, ready := by simp }

/-- SEND starts (rule R230). -/
theorem RtuInv.started {p : List Byte} (hst : r.st = .queue) (hpos : 1 ≤ r.bufferLen)
    (hp : r.buf.readRange 0 r.bufferLen = some p) :
    RtuInv c { r with txCrc := crc16 (r.frameAddress :: p), txIndex := 0, txen := true, st := .txAddr } := by
  have hc := h.configured_of_ne (by simp [hst])
  exact { h with
    txCap := Nat.zero_le _, unconfigured := by simp [hc], timed := fun hc _ => h.timed hc (by simp [hst])
    empty := by simp, counted := nofun, delayed := nofun, checked := nofun, enabled := rfl
    sending := fun _ => ⟨hpos, p, hp, rfl⟩, sendAddr := fun _ => rfl, sendPdu := nofun, sendCrc := nofun, ready := by simp }

/-- A transmission moves on (rule R231). -/
theorem RtuInv.advanced {st : RtuSt} {i : Nat} (htx : r.st.transmitting = true) (hst : st.transmitting = true)
    (hi : i ≤ cap c) (haddr : st ≠ .txAddr) (hpdu : st = .txPdu → i < r.bufferLen) (hcrc : st = .txCrc → i < 2) :
    RtuInv c { r with st := st, txIndex := i } := by
  have hc := h.configured_of_ne fun e => by simp [e, RtuSt.transmitting] at htx
  have hx : r.st ≠ .exception := fun e => by simp [e, RtuSt.transmitting] at htx
  have hne {st' : RtuSt} (hst' : st'.transmitting = false) : st ≠ st' := by rintro rfl; simp [hst'] at hst
  have hen := h.enabled
  rw [htx] at hen
  exact { h with
    txCap := hi, unconfigured := by simp [hc], timed := fun hc _ => h.timed hc hx
    empty := by simp [hne (st' := .idle) rfl, hne (st' := .dump) rfl, hne (st' := .exception) rfl]
    counted := fun e => absurd e (hne rfl), delayed := fun e => absurd e (hne rfl)
    checked := fun e => absurd e (hne rfl), enabled := hen.trans hst.symm, sending := fun _ => h.sending htx
    sendAddr := fun e => absurd e haddr, sendPdu := hpdu, sendCrc := hcrc
    ready := by simp [hne (st' := .frameReady) rfl, hne (st' := .collision) rfl] }

/-- An accepted byte moves the registers on (rule R233). -/
theorem RtuInv.txAdvance (hcap : 1 ≤ cap c) : RtuInv c (rtuTxAdvance c r) := by
  have hlen := h.lenCap
  unfold rtuTxAdvance
  split
  next hst => exact h.advanced (by rw [hst]; rfl) rfl (Nat.zero_le _) nofun (fun _ => (h.sending (by rw [hst]; rfl)).1) nofun
  next hst =>
    have htx : r.st.transmitting = true := by rw [hst]; rfl
    have hi := h.sendPdu hst
    split
    · exact h.advanced htx rfl (Nat.zero_le _) nofun nofun (fun _ => Nat.two_pos)
    · exact h.advanced htx htx (by omega) (by simp [hst]) (fun _ => by omega) (by simp [hst])
  next hst =>
    have htx : r.st.transmitting = true := by rw [hst]; rfl
    have hi := h.sendCrc hst
    split
    · exact h.advanced htx rfl (min_le_right ..) nofun nofun nofun
    · exact h.advanced htx htx (by omega) (by simp [hst]) (by simp [hst]) (fun _ => by omega)
  all_goals exact h

/-- The last byte has left the line (rule R236). -/
theorem RtuInv.drained {l : Nat} (hst : r.st = .txDrain) (hl : l < tickModulus c) :
    RtuInv c { r with txen := false, last := l, st := .txWait } := by
  have hc := h.configured_of_ne (by simp [hst])
  exact { h with
    lastTick := hl, unconfigured := by simp [hc], timed := fun hc _ => h.timed hc (by simp [hst])
    empty := by simp, counted := nofun, delayed := nofun, checked := nofun, enabled := rfl, sending := nofun
    sendAddr := nofun, sendPdu := nofun, sendCrc := nofun, ready := by simp }

/-- A byte starts a frame (rule R216). -/
theorem RtuInv.frameStarted (hc : r.configured = true) (hst : r.st = .idle) (b : Byte) :
    RtuInv c { r with frameAddress := b, crc := crcUpdate 0xFFFF#16 b, rxCount := 1, holdN := 0, bufferLen := 0,
                      st := .receive } :=
  { h with
    lenCap := Nat.zero_le _, rxCap := by dsimp only; omega, unconfigured := by simp [hc]
    timed := fun hc _ => h.timed hc (by simp [hst]), empty := by simp, counted := fun _ => rfl, delayed := fun _ _ => rfl
    checked := fun _ => ⟨[], rfl, rfl⟩, enabled := h.enabled.trans (by rw [hst]; rfl), sending := nofun
    sendAddr := nofun, sendPdu := nofun, sendCrc := nofun, ready := by simp }

/-- A byte is received (rules R210, R217): the delay line and the buffer hold the bytes before it, then `b`. -/
theorem RtuInv.byteReceived {b h0 h1 : Byte} {m : Memory} {n : Nat} {k : Fin 3} {p : List Byte} (hst : r.st = .receive)
    (hwf : m.wf = true) (hbound : ∀ cell ∈ m, cell.1 < c.bufferMax) (hn : n ≤ cap c)
    (hcount : n + k.val = r.bufferLen + r.holdN.val + 1) (hdelay : k.val < 2 → n = 0)
    (hp : m.readRange 0 n = some p)
    (hcrc : ∀ q, r.buf.readRange 0 r.bufferLen = some q → p ++ [h0, h1].take k.val = (q ++ r.held) ++ [b]) :
    RtuInv c { r with buf := m, bufferLen := n, hold0 := h0, hold1 := h1, holdN := k, crc := crcUpdate r.crc b,
                      rxCount := r.rxCount + 1 } := by
  obtain ⟨q, hq, hcrc'⟩ := h.checked hst
  have hrx := h.counted hst
  have hk := k.isLt
  exact { h with
    bufWf := hwf, bufBound := hbound, lenCap := hn, rxCap := by dsimp only; omega, empty := by simp [hst]
    counted := fun _ => by dsimp only; omega, delayed := fun _ => hdelay
    checked := fun _ => ⟨p, hp, by
      rw [hcrc', ← crc16_concat]
      exact congrArg (fun l => crc16 (r.frameAddress :: l)) (hcrc q hq).symm⟩
    sending := by simp [hst, RtuSt.transmitting], sendPdu := by simp [hst], ready := by simp [hst] }

/-- A frame long enough holds a PDU long enough (rules R210, R221). -/
theorem RtuInv.pdu_of_receive (hst : r.st = .receive) (hlen : ¬r.rxCount < 3 + c.minPdu) :
    c.minPdu ≤ r.bufferLen ∧ ∃ p, r.buf.readRange 0 r.bufferLen = some p := by
  obtain ⟨p, hp, -⟩ := h.checked hst
  have hcount := h.counted hst
  have hn := r.holdN.isLt
  exact ⟨by omega, p, hp⟩

end Rtu
/-! ### ASCII -/

section Ascii

variable {c : Config} {a : AscFramer} (h : AscInv c a)
include h

theorem AscInv.restamp {l : Nat} (hl : l < tickModulus c) : AscInv c { a with last := l } := { h with lastTick := hl }

/-- The microseconds of a tick are given exactly in the states other than `exception` (rule R327). -/
theorem AscInv.untimed_of_ne {st : AscSt} (hx : a.st ≠ .exception) (hst : st ≠ .exception) :
    st = .exception ↔ c.usPerTick = 0 := by
  rw [← h.untimed]
  exact iff_of_false hst hx

/-- The framer goes to `idle` with an empty buffer. -/
theorem AscInv.cleared {st : AscSt} {n l : Nat} {txen : Bool} (hx : a.st ≠ .exception) (hst : st = .idle) (hn : n = 0)
    (hl : l < tickModulus c) (htx : txen = false) :
    AscInv c { a with st := st, bufferLen := n, last := l, txen := txen } := by
  subst hst
  exact { h with
    lenCap := hn ▸ Nat.zero_le _, lastTick := hl, untimed := h.untimed_of_ne hx nofun, empty := fun _ => hn
    started := by simp, summed := by simp, delayed := by simp, enabled := htx, sending := nofun, sendStart := by simp
    sendPdu := by simp, ready := by simp }

/-- The framer holds a frame for its host. -/
theorem AscInv.held_for_host {st : AscSt} {m : Memory} (hx : a.st ≠ .exception) (hst : st = .frameReady ∨ st = .collision)
    (hwf : m.wf = true) (hbound : ∀ cell ∈ m, cell.1 < c.bufferMax) (htx : a.txen = false)
    (hready : c.minPdu ≤ a.bufferLen ∧ ∃ p, m.readRange 0 a.bufferLen = some p) :
    AscInv c { a with st := st, buf := m } := by
  obtain rfl | rfl := hst <;> exact { h with
    bufWf := hwf, bufBound := hbound, untimed := h.untimed_of_ne hx nofun, empty := by simp, started := by simp
    summed := by simp, delayed := by simp, enabled := htx, sending := nofun, sendStart := by simp, sendPdu := by simp
    ready := fun _ => hready }

/-- The framer is in `queue`, whatever its host has put into the frame. -/
theorem AscInv.queued {st : AscSt} {m : Memory} {fa : Byte} {n : Nat} (hx : a.st ≠ .exception) (hst : st = .queue)
    (hwf : m.wf = true) (hbound : ∀ cell ∈ m, cell.1 < c.bufferMax) (hn : n ≤ cap c) (htx : a.txen = false) :
    AscInv c { a with st := st, buf := m, frameAddress := fa, bufferLen := n } := by
  subst hst
  exact { h with
    bufWf := hwf, bufBound := hbound, lenCap := hn, untimed := h.untimed_of_ne hx nofun, empty := by simp
    started := by simp, summed := by simp, delayed := by simp, enabled := htx, sending := nofun, sendStart := by simp
    sendPdu := by simp, ready := by simp }

/-- SEND starts (rule R321). -/
theorem AscInv.sendStarted {p : List Byte} (hst : a.st = .queue) (hpos : 1 ≤ a.bufferLen)
    (hp : a.buf.readRange 0 a.bufferLen = some p) :
    AscInv c { a with txLrc := lrcOf a.frameAddress p, txIndex := 0, txen := true, st := .txSof } :=
  { h with
    txCap := Nat.zero_le _, untimed := h.untimed_of_ne (by simp [hst]) nofun, empty := by simp, started := by simp
    summed := by simp, delayed := by simp, enabled := rfl, sending := fun _ => ⟨hpos, p, hp, rfl⟩
    sendStart := fun _ => rfl, sendPdu := by simp, ready := by simp }

/-- A transmission moves on (rule R322). -/
theorem AscInv.advanced {st : AscSt} {i : Nat} (htx : a.st.transmitting = true) (hst : st.transmitting = true)
    (hi : i ≤ cap c) (hstart : st = .txSof ∨ st = .txAddrHigh ∨ st = .txAddrLow → i = 0)
    (hpdu : st = .txPduHigh ∨ st = .txPduLow → i < a.bufferLen) : AscInv c { a with st := st, txIndex := i } := by
  have hx : a.st ≠ .exception := fun e => by simp [e, AscSt.transmitting] at htx
  have hne {st' : AscSt} (hst' : st'.transmitting = false) : st ≠ st' := by rintro rfl; simp [hst'] at hst
  have hen := h.enabled
  rw [htx] at hen
  exact { h with
    txCap := hi, untimed := h.untimed_of_ne hx (hne rfl)
    empty := by simp [hne (st' := .idle) rfl, hne (st' := .exception) rfl]
    started := by simp [hne (st' := .rxAddrHigh) rfl, hne (st' := .rxAddrLow) rfl]
    summed := by simp [hne (st' := .rxPduHigh) rfl, hne (st' := .rxPduLow) rfl, hne (st' := .rxCr) rfl]
    delayed := by simp [hne (st' := .rxPduHigh) rfl, hne (st' := .rxPduLow) rfl, hne (st' := .rxCr) rfl]
    enabled := hen.trans hst.symm, sending := fun _ => h.sending htx, sendStart := hstart, sendPdu := hpdu
    ready := by simp [hne (st' := .frameReady) rfl, hne (st' := .collision) rfl] }

/-- An accepted character moves the registers on (rule R323). -/
theorem AscInv.txAdvance : AscInv c (ascTxAdvance a) := by
  have hlen := h.lenCap
  have hi := h.txCap
  unfold ascTxAdvance
  split
  iterate 2 next hst => exact h.advanced (by rw [hst]; rfl) rfl hi (fun _ => h.sendStart (by simp [hst])) (by simp)
  next hst =>
    have htx : a.st.transmitting = true := by rw [hst]; rfl
    exact h.advanced htx rfl hi (by simp) fun _ => h.sendStart (.inr (.inr hst)) ▸ (h.sending htx).1
  next hst => exact h.advanced (by rw [hst]; rfl) rfl hi (by simp) fun _ => h.sendPdu (.inl hst)
  next hst =>
    have htx : a.st.transmitting = true := by rw [hst]; rfl
    have hlt := h.sendPdu (.inr hst)
    split
    · exact h.advanced htx rfl (by omega) (by simp) (by simp)
    · exact h.advanced htx rfl (by omega) (by simp) fun _ => by omega
  iterate 4 next hst => exact h.advanced (by rw [hst]; rfl) rfl hi (by simp) (by simp)
  all_goals exact h

/-- `:` starts a frame (rules R309, R311). -/
theorem AscInv.frameStarted (hx : a.st ≠ .exception) (htx : a.txen = false) :
    AscInv c { a with lrc := 0#8, bufferLen := 0, pendValid := false, st := .rxAddrHigh } :=
  { h with
    lenCap := Nat.zero_le _, untimed := h.untimed_of_ne hx nofun, empty := by simp, started := fun _ => ⟨rfl, rfl, rfl⟩
    summed := by simp, delayed := by simp, enabled := htx, sending := nofun, sendStart := by simp, sendPdu := by simp
    ready := by simp }

/-- The high nibble of the address (rule R310). -/
theorem AscInv.addressHigh (hst : a.st = .rxAddrHigh) (n : BitVec 4) : AscInv c { a with nib := n, st := .rxAddrLow } :=
  { h with
    untimed := h.untimed_of_ne (by simp [hst]) nofun, empty := by simp, started := fun _ => h.started (.inl hst)
    summed := by simp, delayed := by simp, enabled := h.enabled.trans (by rw [hst]; rfl), sending := nofun
    sendStart := by simp, sendPdu := by simp, ready := by simp }

/-- Behind the address: the buffer holds the PDU's bytes but the pending one, and the sum is theirs (rule R310). -/
theorem AscInv.pduRead {st : AscSt} {m : Memory} {n : Nat} {fa lrc pend : Byte} {pendValid : Bool} {nib : BitVec 4}
    {p : List Byte} (hx : a.st ≠ .exception) (hst : st = .rxPduHigh ∨ st = .rxPduLow ∨ st = .rxCr) (hwf : m.wf = true)
    (hbound : ∀ cell ∈ m, cell.1 < c.bufferMax) (hn : n ≤ cap c) (hp : m.readRange 0 n = some p)
    (hsum : lrc = byteSum (fa :: p)) (hdelay : pendValid = false → n = 0) (htx : a.txen = false) :
    AscInv c { a with st := st, buf := m, bufferLen := n, frameAddress := fa, lrc := lrc, nib := nib, pend := pend,
                      pendValid := pendValid } := by
  obtain rfl | rfl | rfl := hst <;> exact { h with
    bufWf := hwf, bufBound := hbound, lenCap := hn, untimed := h.untimed_of_ne hx nofun, empty := by simp
    started := by simp, summed := fun _ => ⟨p, hp, hsum⟩, delayed := fun _ => hdelay, enabled := htx, sending := nofun
    sendStart := by simp, sendPdu := by simp, ready := by simp }

/-- SET_TIMEOUT on a block with ticks (rule R302). -/
theorem AscInv.retimed (hc : c.wf = true) (ms : Word32) :
    AscInv c { a with timeoutMs := ms, timeoutTicks := timeoutTicks c ms.toNat } := by
  obtain ⟨hw, -⟩ := (Config.wf_iff c).1 hc
  exact { h with timed := fun _ => ⟨two_le_satTicks hw _, satTicks_lt ..⟩ }

end Ascii

end Sys2Proof.Machine
end

section
/-! PROOFS. A command of a framer under way, in a block with the invariant: the frame-ready step, and the RTU framer's POLL and
transmission (rules R211 to R241, R242, R450). -/

namespace Sys2Proof.Machine

/-- The invariant of the block, except that framer `u` may hold a frame that a bound master engine has not yet taken. -/
structure State.InvBut (u : FramerKind) (s : State) : Prop where
  cfg : s.cfg.wf = true
  rtu : RtuInv s.cfg s.rtu
  asc : AscInv s.cfg s.asc
  mst : MstInv s.cfg s.mst
  bound : ∀ v, v ≠ u → s.cfg.master = some v → ¬s.holdsFrame v

section Inv

variable {u : FramerKind} {s : State}

theorem State.InvBut.inv (h : s.InvBut u) (hb : s.cfg.master = some u → ¬s.holdsFrame u) : s.Inv :=
  ⟨h.cfg, h.rtu, h.asc, h.mst, fun v => by
    by_cases hv : v = u
    · exact hv ▸ hb
    · exact h.bound v hv⟩

theorem State.InvBut.emit (h : s.InvBut u) (e : Event) : State.InvBut u (s.emit e) :=
  ⟨h.cfg, h.rtu, h.asc, h.mst, h.bound⟩

variable (h : s.Inv)
include h

/-- The registers of the RTU framer replaced. -/
theorem State.Inv.invBut_rtu {r : RtuFramer} (hr : RtuInv s.cfg r) : State.InvBut .rtu { s with rtu := r } :=
  ⟨h.cfg, hr, h.asc, h.mst, fun
    | .rtu, hv => absurd rfl hv
    | .ascii, _ => h.bound .ascii⟩

theorem State.Inv.invBut_asc {a : AscFramer} (ha : AscInv s.cfg a) : State.InvBut .ascii { s with asc := a } :=
  ⟨h.cfg, h.rtu, ha, h.mst, fun
    | .rtu, _ => h.bound .rtu
    | .ascii, hv => absurd rfl hv⟩

theorem State.Inv.with_mst {m : Master} (hm : MstInv s.cfg m) : State.Inv { s with mst := m } :=
  ⟨h.cfg, h.rtu, h.asc, hm, h.bound⟩

omit h in
/-- The invariant speaks of the parameters and of the units' registers only. -/
theorem State.Inv.with_others (h : s.Inv) (env : Inputs) (rest : List Request) (f : Option Fault) (ev : List Event)
    (res : Result) : State.Inv { s with inputs := env, pending := rest, fault := f, events := ev, result := res } :=
  ⟨h.cfg, h.rtu, h.asc, h.mst, h.bound⟩

theorem State.Inv.answer (r : Result) : State.Inv (s.answer r) := ⟨h.cfg, h.rtu, h.asc, h.mst, h.bound⟩

theorem State.Inv.raise (f : Fault) : State.Inv (s.raise f) := ⟨h.cfg, h.rtu, h.asc, h.mst, h.bound⟩

theorem State.Inv.emit (e : Event) : State.Inv (s.emit e) := ⟨h.cfg, h.rtu, h.asc, h.mst, h.bound⟩

end Inv


/-! ### The frame-ready step -/

/-- What the engine makes of a frame keeps its registers in their ranges (rules R450 to R455). -/
theorem MstInv.frameTaken {c : Config} {s : State} (h : MstInv c s.mst) (a : Byte) (p : List Byte) {now : Nat}
    (hnow : now < tickModulus c) : MstInv c (s.frameTaken a p now).2 := by
  rw [State.frameTaken]
  split
  · exact h
  split
  · exact { h with stampTick := hnow }
  split
  · exact { h with visible := nofun, unicast := nofun, broadcast := nofun }
  · cases s.inputs.verdict <;> exact { h with visible := nofun, unicast := nofun, broadcast := nofun }

/-- A command of framer `u` is under way, with the answers `env` of the outside agents. -/
structure Underway (env : Inputs) (u : FramerKind) (s : State) : Prop where
  inv : s.Inv
  fault : s.fault = none
  configured : s.configured u = true
  live : s.exceptionOut u = false
  verdict : env.verdict = s.inputs.verdict

section Underway

variable {env : Inputs} {u : FramerKind} {s : State}

/-- A PDU that a framer in `frame_ready` holds. -/
theorem State.InvBut.exists_pdu (h : s.InvBut u) (hr : s.frameReadyOut u = true) :
    ∃ p, (s.buf u).readRange 0 (s.bufferLen u) = some p := by
  cases u
  · exact (h.rtu.ready (.inl (by simpa [State.frameReadyOut] using hr))).2
  · exact (h.asc.ready (.inl (by simpa [State.frameReadyOut] using hr))).2

/-- A framer's buffer released, and the engine's registers written. -/
theorem State.InvBut.released (h : s.InvBut u) (hr : s.Ready u) (ev : List Event) {m : Master} (hm : MstInv s.cfg m) :
    (s.released u ev m).Inv := by
  obtain ⟨-, hc, hst⟩ := hr
  cases u with
  | rtu =>
    have hst : s.rtu.st = .frameReady := by simpa [State.frameReadyOut] using hst
    have hr := h.rtu.cleared (txen := s.rtu.txen) hc (by simp [hst]) (.inl rfl) rfl h.rtu.lastTick
      (by rw [h.rtu.enabled, hst]; rfl)
    refine ⟨h.cfg, hr, h.asc, hm, fun
      | .rtu, _ => ?_
      | .ascii, hb => h.bound .ascii nofun hb⟩
    simp [State.holdsFrame, State.released]
  | ascii =>
    have hst : s.asc.st = .frameReady := by simpa [State.frameReadyOut] using hst
    have ha := h.asc.cleared (txen := s.asc.txen) (by simp [hst]) rfl rfl h.asc.lastTick
      (by rw [h.asc.enabled, hst]; rfl)
    refine ⟨h.cfg, h.rtu, ha, hm, fun
      | .rtu, hb => h.bound .rtu nofun hb
      | .ascii, _ => ?_⟩
    simp [State.holdsFrame, State.released]

/-- At the end of a valid frame a bound engine takes it, and the host of an unbound framer holds it (rules R221, R312). -/
theorem State.InvBut.underway_notifyMaster (h : s.InvBut u) (hr : s.Ready u) (hv : env.verdict = s.inputs.verdict) :
    Underway env u (notifyMaster u env s) := by
  obtain ⟨p, hp⟩ := h.exists_pdu hr.st
  unfold notifyMaster
  split
  next hb =>
    rw [hr.frameReadyStep_eq hp hv]
    refine ⟨h.released hr _ (h.mst.frameTaken _ p (nowTick_lt ..)), by simpa using hr.fault, ?_, ?_, ?_⟩
    · have := hr.configured
      cases u <;> exact this
    · cases u <;> rfl
    · cases u <;> exact hv
  next hb =>
    refine ⟨h.inv fun e => absurd e hb, hr.fault, hr.configured, ?_, hv⟩
    have := hr.st
    cases u <;> simp_all [State.frameReadyOut, State.exceptionOut]

end Underway

theorem RtuSt.ne_of_transmitting {st st' : RtuSt} (h : st.transmitting = true) (h' : st'.transmitting = false) :
    st ≠ st' := by rintro rfl; simp [h'] at h

@[simp] theorem rtuTxAdvance_configured (c : Config) (r : RtuFramer) :
    (rtuTxAdvance c r).configured = r.configured := by
  fun_cases rtuTxAdvance c r <;> rfl

/-- After an accepted byte the framer transmits still (rule R231). -/
theorem rtuTxAdvance_transmitting (c : Config) {r : RtuFramer} (h : r.st.offering = true) :
    (rtuTxAdvance c r).st.transmitting = true := by
  unfold rtuTxAdvance
  split
  next => rfl
  next hst => split <;> simp [hst, RtuSt.transmitting]
  next hst => split <;> simp [hst, RtuSt.transmitting]
  all_goals next hst => simp [hst, RtuSt.offering] at h

section Underway
variable {env : Inputs} {u : FramerKind} {s : State}

section
variable (h : Underway env u s)
include h

theorem Underway.answer (r : Result) : Underway env u (s.answer r) :=
  ⟨h.inv.answer r, h.fault, h.configured, h.live, h.verdict⟩

theorem Underway.emit (e : Event) : Underway env u (s.emit e) :=
  ⟨h.inv.emit e, h.fault, h.configured, h.live, h.verdict⟩

end

/-! ### RTU -/

section Rtu

variable (h : Underway env .rtu s)
include h

theorem Underway.rtuLive : s.rtu.st ≠ .exception := by simpa [State.exceptionOut] using h.live

/-- The registers of the RTU framer written, where they do not come to hold a frame. -/
theorem Underway.with_rtu {r : RtuFramer} (hr : RtuInv s.cfg r) (hc : r.configured = true) (hx : r.st ≠ .exception)
    (hb : s.cfg.master = some .rtu → ¬(r.st = .frameReady ∨ r.st = .collision)) :
    Underway env .rtu { s with rtu := r } :=
  ⟨(h.inv.invBut_rtu hr).inv hb, h.fault, hc, by simpa [State.exceptionOut] using hx, h.verdict⟩

/-- The framer goes to `idle` or `dump` with an empty buffer. -/
theorem Underway.with_cleared {st : RtuSt} {n l : Nat} {txen : Bool} (hst : st = .idle ∨ st = .dump) (hn : n = 0)
    (hl : l < tickModulus s.cfg) (htx : txen = false) :
    Underway env .rtu { s with rtu := { s.rtu with st := st, bufferLen := n, last := l, txen := txen } } := by
  refine h.with_rtu (h.inv.rtu.cleared h.configured h.rtuLive hst hn hl htx) h.configured ?_ fun _ => ?_ <;>
    obtain rfl | rfl := hst <;> simp

theorem Underway.rtuTxen (hst : s.rtu.st.transmitting = false) : s.rtu.txen = false := h.inv.rtu.enabled.trans hst

theorem Underway.rtuReject (hst : s.rtu.st = .receive) (c : Cause) : Underway env .rtu (rtuReject c s) :=
  (h.emit (.cause .rtu c)).with_cleared (.inl rfl) rfl h.inv.rtu.lastTick (h.rtuTxen (by rw [hst]; rfl))

theorem Underway.rtuFrameEnd (hst : s.rtu.st = .receive) : Underway env .rtu (rtuFrameEnd env s) := by
  unfold Machine.rtuFrameEnd
  split
  · exact h.rtuReject hst _
  split
  · exact h.rtuReject hst _
  split
  · next hlen _ _ =>
    have hr := h.inv.rtu.held_for_host h.configured h.rtuLive (.inl rfl) h.inv.rtu.bufWf h.inv.rtu.bufBound
      (h.rtuTxen (by rw [hst]; rfl)) (h.inv.rtu.pdu_of_receive hst hlen)
    exact ((h.inv.invBut_rtu hr).emit _).underway_notifyMaster ⟨h.fault, h.configured, rfl⟩ h.verdict
  · exact h.rtuReject hst _

theorem Underway.rtuPollTimers : Underway env .rtu (rtuPollTimers env s) := by
  have hlast := h.inv.rtu.lastTick
  unfold Machine.rtuPollTimers
  split
  case isFalse => exact h
  split
  next hst => exact h.rtuFrameEnd hst
  next hst =>
    exact h.with_cleared (.inl rfl) (h.inv.rtu.empty (.inr (.inl hst))) hlast (h.rtuTxen (by rw [hst]; rfl))
  next hst =>
    have hr := h.inv.rtu.held_for_host h.configured h.rtuLive (.inl rfl) h.inv.rtu.bufWf h.inv.rtu.bufBound
      (h.rtuTxen (by rw [hst]; rfl)) (h.inv.rtu.ready (.inr hst))
    exact (h.inv.invBut_rtu hr).underway_notifyMaster ⟨h.fault, h.configured, rfl⟩ h.verdict
  next hst => exact h.with_cleared (.inl rfl) rfl hlast (h.rtuTxen (by rw [hst]; rfl))
  all_goals exact h

theorem Underway.rtuDump (hst : s.rtu.st = .receive) (c : Cause) : Underway env .rtu (rtuDump c s) :=
  (h.with_cleared (.inr rfl) rfl h.inv.rtu.lastTick (h.rtuTxen (by rw [hst]; rfl))).emit _

/-- A byte that `receive` accepts (rule R217). -/
theorem Underway.byteReceived {b h0 h1 : Byte} {m : Memory} {n : Nat} {k : Fin 3} {p : List Byte}
    (hst : s.rtu.st = .receive) (hwf : m.wf = true) (hbound : ∀ cell ∈ m, cell.1 < s.cfg.bufferMax) (hn : n ≤ cap s.cfg)
    (hcount : n + k.val = s.rtu.bufferLen + s.rtu.holdN.val + 1) (hdelay : k.val < 2 → n = 0)
    (hp : m.readRange 0 n = some p)
    (hheld : ∀ q, s.rtu.buf.readRange 0 s.rtu.bufferLen = some q →
      p ++ [h0, h1].take k.val = (q ++ s.rtu.held) ++ [b]) :
    Underway env .rtu (rtuCountByte b { s with rtu := { s.rtu with
      buf := m, bufferLen := n, hold0 := h0, hold1 := h1, holdN := k } }) :=
  h.with_rtu (h.inv.rtu.byteReceived hst hwf hbound hn hcount hdelay hp hheld) h.configured h.rtuLive fun _ => by
    simp [hst]

theorem Underway.rtuReceiveByte (hst : s.rtu.st = .receive) (b : Byte) (gap : Nat) :
    Underway env .rtu (rtuReceiveByte b gap s) := by
  have hinv := h.inv.rtu
  have hdelay := hinv.delayed hst
  unfold Machine.rtuReceiveByte
  split
  · exact h.rtuDump hst _
  split
  next hfull =>
    split
    · exact h.rtuDump hst _
    next hroom =>
    have hlen : s.rtu.bufferLen < cap s.cfg := lt_of_le_of_ne hinv.lenCap hroom
    have hmax : s.rtu.bufferLen < s.cfg.bufferMax := hlen.trans_le (cap_le s.cfg).1
    have hwrite : s.bufWrite .rtu s.rtu.bufferLen s.rtu.hold0 = _ := if_pos hmax
    obtain ⟨q, hq, -⟩ := hinv.checked hst
    have hq' := Memory.readRange_write_end _ s.rtu.hold0 _ _ _ hq
    rw [Nat.zero_add] at hq'
    rw [rtuCommit, hwrite, State.andThen_of_ok _ (by exact h.fault)]
    refine h.byteReceived hst (Memory.wf_write _ _ _ hinv.bufWf) (Memory.bound_write _ hmax _ hinv.bufBound) hlen
      (Nat.add_right_comm ..) (by simp [hfull]) hq' fun q' hq' => ?_
    obtain rfl : q = q' := Option.some_injective _ (hq.symm.trans hq')
    simp [RtuFramer.held, hfull]
  next hfull =>
  obtain ⟨q, hq, -⟩ := hinv.checked hst
  split
  next hone =>
    refine h.byteReceived hst hinv.bufWf hinv.bufBound hinv.lenCap (by simp [hone]) (by simp) hq fun q' hq' => ?_
    obtain rfl : q = q' := Option.some_injective _ (hq.symm.trans hq')
    simp [RtuFramer.held, hone]
  next hone =>
    have hzero : s.rtu.holdN = 0 := by omega
    refine h.byteReceived hst hinv.bufWf hinv.bufBound hinv.lenCap (by simp [hzero]) (by simpa [hzero] using hdelay) hq
      fun q' hq' => ?_
    obtain rfl : q = q' := Option.some_injective _ (hq.symm.trans hq')
    simp [RtuFramer.held, hzero]

theorem Underway.rtuOnByte (b : Byte) : Underway env .rtu (rtuOnByte env b s) := by
  have hstamp := h.with_rtu (h.inv.rtu.restamp (nowTick_lt s.cfg env)) h.configured h.rtuLive (h.inv.bound .rtu)
  rw [Machine.rtuOnByte]
  dsimp only
  split
  next hst =>
    exact hstamp.with_rtu (hstamp.inv.rtu.frameStarted h.configured hst b) h.configured nofun (fun _ => by simp)
  next hst => exact hstamp.rtuReceiveByte hst b _
  next hst =>
    have hb : s.cfg.master ≠ some .rtu := fun hb => h.inv.bound .rtu hb (.inl hst)
    have hr := hstamp.inv.rtu.held_for_host h.configured h.rtuLive (.inr rfl) h.inv.rtu.bufWf h.inv.rtu.bufBound
      (h.rtuTxen (by rw [hst]; rfl)) (h.inv.rtu.ready (.inl hst))
    exact (hstamp.with_rtu hr h.configured nofun fun e => absurd e hb).emit _
  all_goals exact hstamp

theorem Underway.rtuReadError : Underway env .rtu (rtuReadError env s) := by
  have herr := h.emit (.cause .rtu .rxTransport)
  rw [Machine.rtuReadError]
  dsimp only
  split
  iterate 3 next hst =>
    exact herr.with_cleared (.inr rfl) rfl (nowTick_lt ..) (h.rtuTxen (by rw [show s.rtu.st = _ from hst]; rfl))
  all_goals exact herr

omit h in
theorem Underway.rtuDrain : ∀ (bs : List Byte) {s : State}, Underway env .rtu s → Underway env .rtu (rtuDrain env bs s)
  | [], _, h => iteInduction (fun _ => h.rtuReadError) fun _ => h
  | b :: bs, _, h => State.andThen_keeps (h.rtuOnByte b) (Underway.rtuDrain bs)

/-- A transmitting framer has a byte to offer (rule R233): the PDU's are written, below BUFFER_MAX. -/
theorem Underway.exists_rtuTxByte : ∃ b, rtuTxByte s = .ok b := by
  unfold rtuTxByte
  split
  · exact ⟨_, rfl⟩
  next hst =>
    obtain ⟨-, p, hp, -⟩ := h.inv.rtu.sending (by rw [hst]; rfl)
    have hi := h.inv.rtu.sendPdu hst
    have hlen := Memory.length_of_readRange _ _ _ _ hp
    have hread := Memory.read_of_readRange _ _ _ _ _ hp hi
    rw [Nat.zero_add, List.getElem?_eq_getElem (hlen.symm ▸ hi)] at hread
    have hcap := h.inv.rtu.lenCap
    exact ⟨_, bufRead_of_written (hi.trans_le (hcap.trans (cap_le s.cfg).1)) hread⟩
  all_goals exact ⟨_, rfl⟩

theorem Underway.rtuTxAccepted (ho : s.rtu.st.offering = true) (b : Byte) : Underway env .rtu (rtuTxAccepted b s) := by
  have htx := rtuTxAdvance_transmitting s.cfg ho
  have hr := h.with_rtu (h.inv.rtu.txAdvance (one_le_cap h.inv.cfg))
    ((rtuTxAdvance_configured ..).trans h.configured) (RtuSt.ne_of_transmitting htx rfl) fun _ => by
      simp [RtuSt.ne_of_transmitting htx (st' := .frameReady) rfl, RtuSt.ne_of_transmitting htx (st' := .collision) rfl]
  exact ⟨⟨hr.inv.cfg, hr.inv.rtu, hr.inv.asc, hr.inv.mst, hr.inv.bound⟩, hr.fault, hr.configured, hr.live, hr.verdict⟩

omit h in
theorem Underway.rtuTxLoop : ∀ (fuel : Nat) (left : Option Nat) {s : State}, Underway env .rtu s →
    Underway env .rtu (rtuTxLoop env fuel left s)
  | 0, _, _, h => h
  | fuel + 1, left, s, h => by
    by_cases ho : s.rtu.st.offering = true
    · obtain ⟨b, hb⟩ := h.exists_rtuTxByte
      rw [rtuTxLoop_turn ho hb]
      split
      · refine iteInduction (fun _ => ?_) fun _ => h
        exact (h.with_cleared (.inl rfl) rfl h.inv.rtu.lastTick rfl).emit _
      · exact Underway.rtuTxLoop fuel _ (h.rtuTxAccepted ho b)
    · rw [Machine.rtuTxLoop, if_neg ho]
      exact h

theorem Underway.rtuTxProgress : Underway env .rtu (rtuTxProgress env s) := by
  refine State.andThen_keeps (h.rtuTxLoop _ _) fun h => ?_
  refine iteInduction (fun hst => ?_) fun _ => h
  refine iteInduction (fun _ => ?_) fun _ => h
  exact h.with_rtu (h.inv.rtu.drained hst (nowTick_lt ..)) h.configured nofun fun _ => by simp

/-- An RTU framer's POLL runs to its end (rule R211). -/
theorem Underway.exists_rtuPoll : ∃ t, Underway env .rtu t ∧ rtuPoll env s = t.answer (.ticks (rtuDeadline env t)) := by
  have htimers := h.rtuPollTimers
  have hdrain := htimers.rtuDrain env.rx
  have hphase : Underway env .rtu (rtuTransmitPhase env (Machine.rtuDrain env env.rx (Machine.rtuPollTimers env s))) :=
    iteInduction (fun _ => hdrain.rtuTxProgress) fun _ => hdrain
  refine ⟨_, hphase, ?_⟩
  rw [rtuPoll, if_pos (by exact h.configured), if_neg h.rtuLive, State.andThen_of_ok _ htimers.fault,
    State.andThen_of_ok _ hdrain.fault, State.andThen_of_ok _ hphase.fault]

end Rtu
end Underway

end Sys2Proof.Machine
end

section
/-! PROOFS. A command of the ASCII framer under way, in a block with the invariant (rules R305 to R327, R328). -/

namespace Sys2Proof.Machine

theorem AscSt.ne_of_transmitting {st st' : AscSt} (h : st.transmitting = true) (h' : st'.transmitting = false) :
    st ≠ st' := by rintro rfl; simp [h'] at h

/-- After an accepted character the framer transmits still (rule R322). -/
theorem ascTxAdvance_transmitting {a : AscFramer} (h : a.st.offering = true) : (ascTxAdvance a).st.transmitting = true := by
  unfold ascTxAdvance
  split
  iterate 4 next => rfl
  next => dsimp only; split <;> rfl
  iterate 4 next => rfl
  all_goals next hst => simp [hst, AscSt.offering] at h

section Underway
variable {env : Inputs} {s : State}

/-! ### ASCII -/

section Ascii

variable (h : Underway env .ascii s)
include h

theorem Underway.ascLive : s.asc.st ≠ .exception := by simpa [State.exceptionOut] using h.live

/-- The registers of the ASCII framer written, where they do not come to hold a frame. -/
theorem Underway.with_asc {a : AscFramer} (ha : AscInv s.cfg a) (hx : a.st ≠ .exception)
    (hb : s.cfg.master = some .ascii → ¬(a.st = .frameReady ∨ a.st = .collision)) :
    Underway env .ascii { s with asc := a } :=
  ⟨(h.inv.invBut_asc ha).inv hb, h.fault, rfl, by simpa [State.exceptionOut] using hx, h.verdict⟩

/-- The framer goes to `idle` with an empty buffer. -/
theorem Underway.with_idle {l : Nat} {txen : Bool} (hl : l < tickModulus s.cfg) (htx : txen = false) :
    Underway env .ascii { s with asc := { s.asc with st := .idle, bufferLen := 0, last := l, txen := txen } } :=
  h.with_asc (h.inv.asc.cleared h.ascLive rfl rfl hl htx) nofun fun _ => by simp

theorem Underway.ascTxen (hst : s.asc.st.transmitting = false) : s.asc.txen = false := h.inv.asc.enabled.trans hst

omit h in
theorem AscSt.transmitting_of_receiving {st : AscSt} (h : st.receiving = true) : st.transmitting = false := by
  cases st <;> simp [AscSt.receiving] at h <;> rfl

theorem Underway.ascDiscard (hst : s.asc.st.receiving = true) (c : Cause) : Underway env .ascii (ascDiscard c s) :=
  (h.with_idle h.inv.asc.lastTick (h.ascTxen (AscSt.transmitting_of_receiving hst))).emit _

theorem Underway.ascPollTimers : Underway env .ascii (ascPollTimers env s) := by
  unfold Machine.ascPollTimers
  split
  case isFalse => exact h
  split
  next hst => exact h.ascDiscard hst _
  split
  next hst =>
    have ha := h.inv.asc.held_for_host h.ascLive (.inl rfl) h.inv.asc.bufWf h.inv.asc.bufBound
      (h.ascTxen (by rw [hst]; rfl)) (h.inv.asc.ready (.inr hst))
    exact (h.inv.invBut_asc ha).underway_notifyMaster ⟨h.fault, rfl, rfl⟩ h.verdict
  next => exact h

theorem Underway.ascFrameEnd (hst : s.asc.st = .rxCr) : Underway env .ascii (ascFrameEnd env s) := by
  have hrx : s.asc.st.receiving = true := by rw [hst]; rfl
  unfold Machine.ascFrameEnd
  split
  · exact h.ascDiscard hrx _
  next hlong =>
  split
  · exact h.ascDiscard hrx _
  split
  · obtain ⟨p, hp, -⟩ := h.inv.asc.summed (.inr (.inr hst))
    have ha := h.inv.asc.held_for_host h.ascLive (.inl rfl) h.inv.asc.bufWf h.inv.asc.bufBound
      (h.ascTxen (by rw [hst]; rfl)) ⟨Nat.not_lt.1 (not_or.1 hlong).2, p, hp⟩
    exact ((h.inv.invBut_asc ha).emit _).underway_notifyMaster ⟨h.fault, rfl, rfl⟩ h.verdict
  · exact h.ascDiscard hrx _

/-- Behind the address (rule R310). -/
theorem Underway.pduRead {st : AscSt} {m : Memory} {n : Nat} {fa lrc pend : Byte} {pendValid : Bool} {nib : BitVec 4}
    {p : List Byte} (hrx : s.asc.st.receiving = true) (hst : st = .rxPduHigh ∨ st = .rxPduLow ∨ st = .rxCr)
    (hwf : m.wf = true) (hbound : ∀ cell ∈ m, cell.1 < s.cfg.bufferMax) (hn : n ≤ cap s.cfg)
    (hp : m.readRange 0 n = some p) (hsum : lrc = byteSum (fa :: p)) (hdelay : pendValid = false → n = 0) :
    Underway env .ascii { s with asc := { s.asc with
      st := st, buf := m, bufferLen := n, frameAddress := fa, lrc := lrc, nib := nib, pend := pend
      pendValid := pendValid } } := by
  refine h.with_asc (h.inv.asc.pduRead h.ascLive hst hwf hbound hn hp hsum hdelay
    (h.ascTxen (AscSt.transmitting_of_receiving hrx))) ?_ fun _ => ?_ <;> obtain rfl | rfl | rfl := hst <;> simp

theorem Underway.ascDecodedByte (hst : s.asc.st = .rxPduLow) (v : Byte) : Underway env .ascii (ascDecodedByte v s) := by
  have hinv := h.inv.asc
  have hrx : s.asc.st.receiving = true := by rw [hst]; rfl
  obtain ⟨p, hp, hsum⟩ := hinv.summed (.inr (.inl hst))
  unfold Machine.ascDecodedByte
  split
  next hpend =>
    split
    · exact h.ascDiscard hrx _
    next hroom =>
    have hlen : s.asc.bufferLen < cap s.cfg := lt_of_le_of_ne hinv.lenCap hroom
    have hmax : s.asc.bufferLen < s.cfg.bufferMax := hlen.trans_le (cap_le s.cfg).1
    have hwrite : s.bufWrite .ascii s.asc.bufferLen s.asc.pend = _ := if_pos hmax
    have hp' := Memory.readRange_write_end _ s.asc.pend _ _ _ hp
    rw [Nat.zero_add] at hp'
    have hsum' : s.asc.lrc + s.asc.pend = byteSum (s.asc.frameAddress :: (p ++ [s.asc.pend])) := by
      rw [hsum, ← byteSum_concat]; rfl
    rw [hwrite, State.andThen_of_ok _ (by exact h.fault)]
    exact h.pduRead hrx (.inl rfl) (Memory.wf_write _ _ _ hinv.bufWf) (Memory.bound_write _ hmax _ hinv.bufBound) hlen hp'
      hsum' nofun
  next hpend =>
    exact h.pduRead hrx (.inl rfl) hinv.bufWf hinv.bufBound hinv.lenCap hp hsum nofun

theorem Underway.ascReceiveChar (hrx : s.asc.st.receiving = true) (c : Byte) :
    Underway env .ascii (ascReceiveChar env c s) := by
  have hinv := h.inv.asc
  unfold Machine.ascReceiveChar
  split
  next hst _ => exact h.with_asc (hinv.addressHigh hst _) nofun fun _ => by simp
  next hst _ =>
    obtain ⟨hlrc, hlen, -⟩ := hinv.started (.inr hst)
    exact h.pduRead hrx (.inl rfl) hinv.bufWf hinv.bufBound hinv.lenCap (by rw [hlen]; rfl) (by rw [hlrc]; rfl)
      fun _ => hlen
  next hst _ =>
    obtain ⟨p, hp, hsum⟩ := hinv.summed (.inl hst)
    exact h.pduRead hrx (.inr (.inl rfl)) hinv.bufWf hinv.bufBound hinv.lenCap hp hsum (hinv.delayed (.inl hst))
  next hst _ => exact h.ascDecodedByte hst _
  next hst _ =>
    split
    · obtain ⟨p, hp, hsum⟩ := hinv.summed (.inl hst)
      exact h.pduRead hrx (.inr (.inr rfl)) hinv.bufWf hinv.bufBound hinv.lenCap hp hsum (hinv.delayed (.inl hst))
    · exact h.ascDiscard hrx _
  next hst =>
    split
    · exact h.ascFrameEnd hst
    · exact h.ascDiscard hrx _
  next => exact h.ascDiscard hrx _

/-- `:` starts a frame (rules R309, R311). -/
theorem Underway.ascStartFrame (htx : s.asc.st.transmitting = false) : Underway env .ascii (ascStartFrame s) :=
  h.with_asc (h.inv.asc.frameStarted h.ascLive (h.ascTxen htx)) nofun fun _ => by simp

theorem Underway.ascOnChar (c : Byte) : Underway env .ascii (ascOnChar env c s) := by
  have hstamp := h.with_asc (h.inv.asc.restamp (nowTick_lt s.cfg env)) h.ascLive (h.inv.bound .ascii)
  rw [Machine.ascOnChar]
  dsimp only
  split
  next hst => exact iteInduction (fun _ => hstamp.ascStartFrame (by rw [hst]; rfl)) fun _ => hstamp
  iterate 5
    next hst =>
      have hrx : s.asc.st.receiving = true := by rw [hst]; rfl
      exact iteInduction (fun _ => (hstamp.emit _).ascStartFrame (AscSt.transmitting_of_receiving hrx)) fun _ =>
        hstamp.ascReceiveChar hrx c
  next hst =>
    have hb : s.cfg.master ≠ some .ascii := fun hb => h.inv.bound .ascii hb (.inl hst)
    have ha := hstamp.inv.asc.held_for_host h.ascLive (.inr rfl) h.inv.asc.bufWf h.inv.asc.bufBound
      (h.ascTxen (by rw [hst]; rfl)) (h.inv.asc.ready (.inl hst))
    exact (hstamp.with_asc ha nofun fun e => absurd e hb).emit _
  all_goals exact hstamp

theorem Underway.ascReadError : Underway env .ascii (ascReadError s) := by
  have herr := h.emit (.cause .ascii .rxTransport)
  exact iteInduction (fun hrx => herr.with_idle h.inv.asc.lastTick (h.ascTxen (AscSt.transmitting_of_receiving hrx)))
    fun _ => herr

omit h in
theorem Underway.ascDrain : ∀ (cs : List Byte) {s : State}, Underway env .ascii s → Underway env .ascii (ascDrain env cs s)
  | [], _, h => iteInduction (fun _ => h.ascReadError) fun _ => h
  | c :: cs, _, h => State.andThen_keeps (h.ascOnChar c) (Underway.ascDrain cs)

/-- A transmitting framer has a character to offer (rule R323): the PDU's bytes are written, below BUFFER_MAX. -/
theorem Underway.exists_ascTxChar : ∃ c, ascTxChar s = .ok c := by
  have hbyte (hst : s.asc.st = .txPduHigh ∨ s.asc.st = .txPduLow) : ∃ b, s.bufRead .ascii s.asc.txIndex = .ok b := by
    obtain ⟨-, p, hp, -⟩ := h.inv.asc.sending (by obtain e | e := hst <;> rw [e] <;> rfl)
    have hi := h.inv.asc.sendPdu hst
    have hlen := Memory.length_of_readRange _ _ _ _ hp
    have hread := Memory.read_of_readRange _ _ _ _ _ hp hi
    rw [Nat.zero_add, List.getElem?_eq_getElem (hlen.symm ▸ hi)] at hread
    exact ⟨_, bufRead_of_written (hi.trans_le (h.inv.asc.lenCap.trans (cap_le s.cfg).1)) hread⟩
  unfold ascTxChar
  split
  iterate 3 exact ⟨_, rfl⟩
  next hst => obtain ⟨b, e⟩ := hbyte (.inl hst); exact ⟨_, by rw [e]; rfl⟩
  next hst => obtain ⟨b, e⟩ := hbyte (.inr hst); exact ⟨_, by rw [e]; rfl⟩
  all_goals exact ⟨_, rfl⟩

theorem Underway.ascTxAccepted (ho : s.asc.st.offering = true) (c : Byte) : Underway env .ascii (ascTxAccepted c s) := by
  have htx := ascTxAdvance_transmitting ho
  have ha := h.with_asc h.inv.asc.txAdvance (AscSt.ne_of_transmitting htx rfl) fun _ => by
    simp [AscSt.ne_of_transmitting htx (st' := .frameReady) rfl, AscSt.ne_of_transmitting htx (st' := .collision) rfl]
  exact ⟨⟨ha.inv.cfg, ha.inv.rtu, ha.inv.asc, ha.inv.mst, ha.inv.bound⟩, ha.fault, rfl, ha.live, ha.verdict⟩

omit h in
theorem Underway.ascTxLoop : ∀ (fuel : Nat) (left : Option Nat) {s : State}, Underway env .ascii s →
    Underway env .ascii (ascTxLoop env fuel left s)
  | 0, _, _, h => h
  | fuel + 1, left, s, h => by
    by_cases ho : s.asc.st.offering = true
    · obtain ⟨c, hc⟩ := h.exists_ascTxChar
      rw [ascTxLoop_turn ho hc]
      split
      · exact iteInduction (fun _ => (h.with_idle h.inv.asc.lastTick rfl).emit _) fun _ => h
      · exact Underway.ascTxLoop fuel _ (h.ascTxAccepted ho c)
    · rw [Machine.ascTxLoop, if_neg ho]
      exact h

theorem Underway.ascTxProgress : Underway env .ascii (ascTxProgress env s) := by
  refine State.andThen_keeps (h.ascTxLoop _ _) fun h => ?_
  exact iteInduction (fun _ => iteInduction (fun _ => h.with_idle (nowTick_lt ..) rfl) fun _ => h) fun _ => h

/-- An ASCII framer's POLL runs to its end (rule R305). -/
theorem Underway.exists_ascPoll : ∃ t, Underway env .ascii t ∧ ascPoll env s = t.answer (.ticks (ascDeadline env t)) := by
  have htimers := h.ascPollTimers
  have hdrain := htimers.ascDrain env.rx
  have hphase : Underway env .ascii (ascTransmitPhase env (Machine.ascDrain env env.rx (Machine.ascPollTimers env s))) :=
    iteInduction (fun _ => hdrain.ascTxProgress) fun _ => hdrain
  refine ⟨_, hphase, ?_⟩
  rw [ascPoll, if_neg h.ascLive, State.andThen_of_ok _ htimers.fault, State.andThen_of_ok _ hdrain.fault,
    State.andThen_of_ok _ hphase.fault]

end Ascii
end Underway

end Sys2Proof.Machine
end

section
/-! PROOFS. The invariant of the block (rules R242, R328) at power-on and after every instruction and every step. -/

namespace Sys2Proof.Machine

/-! ### Registers after a reset -/

theorem RtuInv.of_reset {c : Config} {t : Nat} {m : Memory} (ht : t < tickModulus c) (hwf : m.wf = true)
    (hbound : ∀ cell ∈ m, cell.1 < c.bufferMax) : RtuInv c (RtuFramer.reset t m) where
  bufWf := hwf
  bufBound := hbound
  lenCap := Nat.zero_le _
  rxCap := Nat.zero_le _
  txCap := Nat.zero_le _
  lastTick := ht
  unconfigured _ := rfl
  timed := nofun
  empty _ := rfl
  counted := nofun
  delayed := nofun
  checked := nofun
  enabled := rfl
  sending := nofun
  sendAddr := nofun
  sendPdu := nofun
  sendCrc := nofun
  ready := by simp [RtuFramer.reset]

theorem AscInv.of_reset {c : Config} {t : Nat} {m : Memory} (hc : c.wf = true) (ht : t < tickModulus c)
    (hwf : m.wf = true) (hbound : ∀ cell ∈ m, cell.1 < c.bufferMax) : AscInv c (AscFramer.reset c t m) := by
  obtain ⟨hw, -⟩ := (Config.wf_iff c).1 hc
  have hst : (AscFramer.reset c t m).st = if c.usPerTick = 0 then .exception else .idle := rfl
  have hne {st : AscSt} (h1 : st ≠ .exception) (h2 : st ≠ .idle) : (AscFramer.reset c t m).st ≠ st := by
    rw [hst]; split
    · exact h1.symm
    · exact h2.symm
  have htx : (AscFramer.reset c t m).st.transmitting = false := by rw [hst]; split <;> rfl
  exact {
    bufWf := hwf, bufBound := hbound, lenCap := Nat.zero_le _, txCap := Nat.zero_le _, lastTick := ht
    untimed := by rw [hst]; split <;> simp [*]
    timed := fun hu => by
      have e : (AscFramer.reset c t m).timeoutTicks = timeoutTicks c 1000 := if_neg hu
      rw [e]
      exact ⟨two_le_satTicks hw _, satTicks_lt ..⟩
    empty := fun _ => rfl, started := fun _ => ⟨rfl, rfl, rfl⟩, summed := by simp [hne], delayed := by simp [hne]
    enabled := htx.symm, sending := by simp [htx], sendStart := by simp [hne], sendPdu := by simp [hne]
    ready := by simp [hne] }

theorem MstInv.of_reset {c : Config} {t : Nat} (ht : t < tickModulus c) : MstInv c (Master.reset c t) where
  visible := nofun
  unicast := nofun
  broadcast := nofun
  stampTick := ht
  rtTick := msToTicks_lt ..
  taTick := msToTicks_lt ..

theorem State.Inv.of_powerOn {c : Config} (hc : c.wf = true) (t0 : Nat) : (State.powerOn c t0).Inv where
  cfg := hc
  rtu := .of_reset (Nat.mod_lt _ (tickModulus_pos c)) rfl nofun
  asc := .of_reset hc (Nat.mod_lt _ (tickModulus_pos c)) rfl nofun
  mst := .of_reset (Nat.mod_lt _ (tickModulus_pos c))
  bound
    | .rtu, _ => by simp [State.holdsFrame, State.powerOn, RtuFramer.reset]
    | .ascii, _ => by
      simp only [State.holdsFrame, State.powerOn, AscFramer.reset]
      split <;> simp

/-- Settles O9: every unit is as after its reset command. -/
theorem invariantAtPowerOn : Obligations.InvariantAtPowerOn :=
  ⟨fun _ t0 hc => .of_powerOn hc t0, .of_powerOn rfl 0⟩

/-! ### The registers written by a command -/

/-- SETUP with arguments that give no usable timing (rule R205). -/
theorem RtuInv.setupInvalid {c : Config} {r : RtuFramer} (h : RtuInv c r) {t : Nat} (ht : t < tickModulus c)
    (baud ifdUs icdUs : Word32) : RtuInv c { setupRegisters t baud ifdUs icdUs r with st := .exception } :=
  { h with
    lenCap := Nat.zero_le _, rxCap := Nat.zero_le _, txCap := Nat.zero_le _, lastTick := ht, unconfigured := nofun
    timed := fun _ hx => absurd rfl hx, empty := fun _ => rfl, counted := nofun, delayed := nofun, checked := nofun
    enabled := rfl, sending := nofun, sendAddr := nofun, sendPdu := nofun, sendCrc := nofun, ready := by simp }

/-- SETUP with arguments that give usable timing. -/
theorem RtuInv.setup {c : Config} {r : RtuFramer} (h : RtuInv c r) {t : Nat} (hc : c.wf = true) (ht : t < tickModulus c)
    (baud ifdUs icdUs : Word32) (us15 us35 : Nat) :
    RtuInv c { setupRegisters t baud ifdUs icdUs r with
      t15 := some (usToTicks c us15), t35 := some (usToTicks c us35), st := .idle } := by
  obtain ⟨hw, -⟩ := (Config.wf_iff c).1 hc
  exact { h with
    lenCap := Nat.zero_le _, rxCap := Nat.zero_le _, txCap := Nat.zero_le _, lastTick := ht, unconfigured := nofun
    timed := fun _ _ => ⟨_, _, rfl, rfl, two_le_satTicks hw _, satTicks_lt .., two_le_satTicks hw _, satTicks_lt ..⟩
    empty := fun _ => rfl, counted := nofun, delayed := nofun, checked := nofun
    enabled := rfl, sending := nofun, sendAddr := nofun, sendPdu := nofun, sendCrc := nofun, ready := by simp }

section Units

variable {s : State} (h : s.Inv)
include h

theorem State.Inv.with_rtu {r : RtuFramer} (hr : RtuInv s.cfg r)
    (hb : s.cfg.master = some .rtu → ¬(r.st = .frameReady ∨ r.st = .collision)) : State.Inv { s with rtu := r } :=
  (h.invBut_rtu hr).inv hb

theorem State.Inv.with_asc {a : AscFramer} (ha : AscInv s.cfg a)
    (hb : s.cfg.master = some .ascii → ¬(a.st = .frameReady ∨ a.st = .collision)) : State.Inv { s with asc := a } :=
  (h.invBut_asc ha).inv hb

end Units

/-- Every state that an outcome leads to has the invariant. -/
def InvAfter (o : Host.Outcome State Fault Refusal) : Prop := ∀ t, o = .next t → t.Inv

section Commands

variable {s : State} (h : s.Inv)
include h

/-- A command whose body keeps the invariant where no fault is recorded. -/
theorem State.Inv.command {f : State → State}
    (hf : (s.answer .none).Inv → (s.answer .none).fault = none → (f (s.answer .none)).Inv) : (s.command f).Inv := by
  obtain ⟨-, -, e⟩ | ⟨hn, e⟩ := State.andThen_cases s fun s => f { s with result := .none }
  · rw [State.command, e]; exact h
  · rw [State.command, e]; exact hf (h.answer .none) hn

theorem State.Inv.invAfter_command {f : State → State}
    (hf : ∀ {s : State}, s.Inv → s.fault = none → (f s).Inv) : InvAfter (.next (s.command f)) := by
  rintro _ ⟨⟩
  exact h.command hf

theorem State.Inv.invAfter_masterCommand {f : State → State}
    (hf : ∀ {s : State}, s.Inv → (f s).Inv) : InvAfter (.next (s.masterCommand f)) :=
  h.invAfter_command fun h _ => iteInduction (fun _ => hf h) fun _ => h.raise _

end Commands

section Bodies

variable {s : State} (h : s.Inv)
include h

/-! ### The registers of a framer, written by its host -/

theorem State.Inv.rtuFinished : (rtuFinished s).Inv := by
  refine iteInduction (fun hc => iteInduction (fun hst => ?_) fun _ => h) fun _ => h.raise _
  have hx : s.rtu.st ≠ .exception := fun e => by simp [e, RtuSt.abandonable] at hst
  have htx : s.rtu.txen = false := by
    rw [h.rtu.enabled]
    cases e : s.rtu.st <;> simp [e, RtuSt.abandonable] at hst <;> rfl
  exact h.with_rtu (h.rtu.cleared hc hx (.inl rfl) rfl h.rtu.lastTick htx) fun _ => by simp

theorem State.Inv.ascFinished : (ascFinished s).Inv := by
  refine iteInduction (fun hst => ?_) fun _ => h
  have hx : s.asc.st ≠ .exception := fun e => by simp [e, AscSt.abandonable] at hst
  have htx : s.asc.txen = false := by
    rw [h.asc.enabled]
    cases e : s.asc.st <;> simp [e, AscSt.abandonable] at hst <;> rfl
  exact h.with_asc (h.asc.cleared hx rfl rfl h.asc.lastTick htx) fun _ => by simp

/-- A write by the owner of the buffer (rule R107). -/
theorem State.Inv.bufWrite_of_owner {u : FramerKind} (ho : s.owner u = .host) (i : Nat) (v : Byte) :
    (s.bufWrite u i v).Inv := by
  obtain ⟨hi, e⟩ | ⟨-, e⟩ := bufWrite_cases s u i v <;> rw [e]
  swap
  · exact h.raise _
  cases u with
  | rtu =>
    have hwf := Memory.wf_write _ i v h.rtu.bufWf
    have hbound := Memory.bound_write v hi _ h.rtu.bufBound
    have hst := (RtuSt.owner_eq_host _).1 ho
    have hc := h.rtu.configured_of_ne (by obtain e | e | e := hst <;> simp [e])
    have hx : s.rtu.st ≠ .exception := by obtain e | e | e := hst <;> simp [e]
    have htx : s.rtu.txen = false := by rw [h.rtu.enabled]; obtain e | e | e := hst <;> rw [e] <;> rfl
    refine h.with_rtu ?_ (h.bound .rtu)
    rw [← or_assoc] at hst
    obtain hst | hst := hst
    · obtain ⟨hlen, p, hp⟩ := h.rtu.ready hst
      exact h.rtu.held_for_host hc hx hst hwf hbound htx ⟨hlen, Memory.exists_readRange_write hp i v⟩
    · exact h.rtu.queued hc hx hst hwf hbound h.rtu.lenCap htx
  | ascii =>
    have hwf := Memory.wf_write _ i v h.asc.bufWf
    have hbound := Memory.bound_write v hi _ h.asc.bufBound
    have hst := (AscSt.owner_eq_host _).1 ho
    have hx : s.asc.st ≠ .exception := by obtain e | e | e := hst <;> simp [e]
    have htx : s.asc.txen = false := by rw [h.asc.enabled]; obtain e | e | e := hst <;> rw [e] <;> rfl
    refine h.with_asc ?_ (h.bound .ascii)
    rw [← or_assoc] at hst
    obtain hst | hst := hst
    · obtain ⟨hlen, p, hp⟩ := h.asc.ready hst
      exact h.asc.held_for_host hx hst hwf hbound htx ⟨hlen, Memory.exists_readRange_write hp i v⟩
    · exact h.asc.queued hx hst hwf hbound h.asc.lenCap htx

/-- SET_FRAME in `queue` (rule R108). -/
theorem State.Inv.setFrameFields_of_queue {u : FramerKind} (hq : s.inQueue u = true) (a : Byte) {n : Nat}
    (hn : n ≤ cap s.cfg) : (s.setFrameFields u a n).Inv := by
  cases u with
  | rtu =>
    have hst : s.rtu.st = .queue := by simpa [State.inQueue] using hq
    have hc := h.rtu.configured_of_ne (by simp [hst])
    exact h.with_rtu (h.rtu.queued hc (by simp [hst]) hst h.rtu.bufWf h.rtu.bufBound hn
      (by rw [h.rtu.enabled, hst]; rfl)) fun _ => by simp [hst]
  | ascii =>
    have hst : s.asc.st = .queue := by simpa [State.inQueue] using hq
    exact h.with_asc (h.asc.queued (by simp [hst]) hst h.asc.bufWf h.asc.bufBound hn
      (by rw [h.asc.enabled, hst]; rfl)) fun _ => by simp [hst]

/-! ### Transmission -/

/-- BEGIN_SEND (rules R228, R320), and the frame that the host then puts in. -/
theorem State.Inv.underway_queued {env : Inputs} {u : FramerKind} {m : Memory} {a : Byte} {n : Nat} (hf : s.fault = none)
    (hv : env.verdict = s.inputs.verdict) (hc : s.configured u = true) (hb : s.canBeginSend u = true) (hwf : m.wf = true)
    (hbound : ∀ cell ∈ m, cell.1 < s.cfg.bufferMax) (hn : n ≤ cap s.cfg) :
    Underway env u (((s.enterQueue u).setBuf u m).setFrameFields u a n) := by
  cases u with
  | rtu =>
    have hst : s.rtu.st = .idle ∨ s.rtu.st = .frameReady := by simpa [State.canBeginSend] using hb
    have hx : s.rtu.st ≠ .exception := by obtain e | e := hst <;> simp [e]
    have htx : s.rtu.txen = false := by rw [h.rtu.enabled]; obtain e | e := hst <;> rw [e] <;> rfl
    exact ⟨h.with_rtu (h.rtu.queued hc hx rfl hwf hbound hn htx) fun _ => by simp, hf, hc, rfl, hv⟩
  | ascii =>
    have hst : s.asc.st = .idle ∨ s.asc.st = .frameReady := by simpa [State.canBeginSend] using hb
    have hx : s.asc.st ≠ .exception := by obtain e | e := hst <;> simp [e]
    have htx : s.asc.txen = false := by rw [h.asc.enabled]; obtain e | e := hst <;> rw [e] <;> rfl
    exact ⟨h.with_asc (h.asc.queued hx rfl hwf hbound hn htx) fun _ => by simp, hf, rfl, rfl, hv⟩

theorem State.Inv.enterQueue {u : FramerKind} (hf : s.fault = none) (hc : s.configured u = true)
    (hb : s.canBeginSend u = true) : (s.enterQueue u).Inv := by
  cases u with
  | rtu =>
    exact (h.underway_queued (env := s.inputs) (a := s.rtu.frameAddress) hf rfl hc hb h.rtu.bufWf h.rtu.bufBound
      h.rtu.lenCap).inv
  | ascii =>
    exact (h.underway_queued (env := s.inputs) (a := s.asc.frameAddress) hf rfl hc hb h.asc.bufWf h.asc.bufBound
      h.asc.lenCap).inv

omit h in
/-- SEND of a PDU whose bytes are written (rules R230, R321). -/
theorem Underway.framerTransmit {env : Inputs} {u : FramerKind} {p : List Byte} (h : Underway env u s)
    (hq : s.inQueue u = true) (hl : s.bufferLen u ≠ 0) (hp : (s.buf u).readRange 0 (s.bufferLen u) = some p) :
    Underway env u (framerTransmit env u s) := by
  rw [Machine.framerTransmit, hp]
  cases u with
  | rtu =>
    have hst : s.rtu.st = .queue := by simpa [State.inQueue] using hq
    have hr := h.inv.rtu.started hst (Nat.pos_of_ne_zero hl) hp
    exact (h.with_rtu hr h.configured nofun fun _ => by simp).rtuTxProgress
  | ascii =>
    have hst : s.asc.st = .queue := by simpa [State.inQueue] using hq
    have ha := h.inv.asc.sendStarted hst (Nat.pos_of_ne_zero hl) hp
    exact (h.with_asc ha nofun fun _ => by simp).ascTxProgress

/-- SEND (rules R230, R321). -/
theorem State.Inv.framerTransmit {u : FramerKind} (hf : s.fault = none) (hc : s.canSend u = true) :
    (framerTransmit s.inputs u s).Inv := by
  obtain ⟨hq, hl⟩ : s.inQueue u = true ∧ s.bufferLen u ≠ 0 := by simpa [State.canSend] using hc
  cases hp : (s.buf u).readRange 0 (s.bufferLen u) with
  | none => rw [Machine.framerTransmit, hp]; exact h.raise _
  | some p =>
    have hunder : Underway s.inputs u s := by
      refine ⟨h, hf, ?_, ?_, rfl⟩
      · cases u with
        | rtu => exact h.rtu.configured_of_ne (by simp_all [State.inQueue])
        | ascii => rfl
      · cases u <;> simp_all [State.inQueue, State.exceptionOut]
    exact (hunder.framerTransmit hq hl hp).inv

omit h in
theorem MstInv.requested {c : Config} {m : Master} (h : MstInv c m) {t : Nat} (ht : t < tickModulus c) (slave : Byte)
    (ra wa wc : Word16) : MstInv c { m with
      slave := slave, readAddress := ra, writeAddress := wa, writeCount := wc, stamp := t, st := requestedSt slave } := by
  have hst : requestedSt slave = if slave = 0#8 then .waitingTurnaroundReply else .waitingForReply := rfl
  by_cases hs : slave = 0#8
  · rw [hst, if_pos hs]
    exact { h with visible := nofun, unicast := nofun, broadcast := fun _ => hs, stampTick := ht }
  · rw [hst, if_neg hs]
    exact { h with visible := nofun, unicast := fun _ => hs, broadcast := nofun, stampTick := ht }

end Bodies

/-! ### A transmission leaves the master engine alone -/

theorem rtuTxLoop_mst (env : Inputs) : ∀ (fuel : Nat) (left : Option Nat) (s : State),
    (rtuTxLoop env fuel left s).mst = s.mst
  | 0, _, _ => rfl
  | fuel + 1, left, s => by
    rw [rtuTxLoop]
    split
    · split
      · rfl
      · split
        · rfl
        · rfl
        · exact rtuTxLoop_mst env fuel _ _
    · rfl

theorem ascTxLoop_mst (env : Inputs) : ∀ (fuel : Nat) (left : Option Nat) (s : State),
    (ascTxLoop env fuel left s).mst = s.mst
  | 0, _, _ => rfl
  | fuel + 1, left, s => by
    rw [ascTxLoop]
    split
    · split
      · rfl
      · split
        · rfl
        · rfl
        · exact ascTxLoop_mst env fuel _ _
    · rfl

theorem rtuTxProgress_mst (env : Inputs) (s : State) : (rtuTxProgress env s).mst = s.mst := by
  refine State.andThen_keeps (P := fun t => t.mst = s.mst) (rtuTxLoop_mst ..) fun h => ?_
  unfold rtuDrainCheck
  split_ifs <;> exact h

theorem ascTxProgress_mst (env : Inputs) (s : State) : (ascTxProgress env s).mst = s.mst := by
  refine State.andThen_keeps (P := fun t => t.mst = s.mst) (ascTxLoop_mst ..) fun h => ?_
  unfold ascDrainCheck
  split_ifs <;> exact h

theorem framerTransmit_mst (env : Inputs) (u : FramerKind) (s : State) : (framerTransmit env u s).mst = s.mst := by
  rw [framerTransmit]
  split
  · rfl
  · cases u
    · exact rtuTxProgress_mst env _
    · exact ascTxProgress_mst env _

section Bodies

variable {s : State} (h : s.Inv)
include h

/-- The PDU of a request in the buffer of the framer that sends it, and the request's context (rules R410, R412). -/
theorem State.Inv.underway_loaded {u : FramerKind} (hf : s.fault = none) (hst : s.mst.st = .idle) (slave : Byte)
    (p : RequestPlan) (hcap : p.pdu.length ≤ cap s.cfg) (hc : s.configured u = true) (hb : s.canBeginSend u = true) :
    Underway s.inputs u (State.setContext slave p (State.loadPdu u slave p.pdu (s.enterQueue u))) := by
  have hroom : 0 + p.pdu.length ≤ s.cfg.bufferMax := by rw [Nat.zero_add]; exact hcap.trans (cap_le s.cfg).1
  have hload : Underway s.inputs u (State.loadPdu u slave p.pdu (s.enterQueue u)) := by
    cases u
    · exact h.underway_queued hf rfl hc hb (Memory.wf_writeList _ _ _ h.rtu.bufWf)
        (Memory.bound_writeList _ _ hroom h.rtu.bufBound) hcap
    · exact h.underway_queued hf rfl hc hb (Memory.wf_writeList _ _ _ h.asc.bufWf)
        (Memory.bound_writeList _ _ hroom h.asc.bufBound) hcap
  have hidle : (State.loadPdu u slave p.pdu (s.enterQueue u)).mst.st = .idle := by simpa [State.loadPdu] using hst
  have hmst : MstInv (State.loadPdu u slave p.pdu (s.enterQueue u)).cfg
      (State.setContext slave p (State.loadPdu u slave p.pdu (s.enterQueue u))).mst :=
    { hload.inv.mst with unicast := by simp [State.setContext, hidle], broadcast := by simp [State.setContext, hidle] }
  exact ⟨hload.inv.with_mst hmst, hload.fault, by cases u <;> exact hload.configured, by cases u <;> rfl,
    by cases u <;> rfl⟩

/-- A request that passed its checks (rules R410, R412, R413). -/
theorem State.Inv.sendRequest {u : FramerKind} (hf : s.fault = none) (hst : s.mst.st = .idle) (slave : Byte)
    (p : RequestPlan) (hpos : 1 ≤ p.pdu.length) (hcap : p.pdu.length ≤ cap s.cfg) (hc : s.configured u = true)
    (hb : s.canBeginSend u = true) : (sendRequest s.inputs u slave p s).Inv := by
  have hloaded := h.underway_loaded hf hst slave p hcap hc hb
  have hsent : Underway s.inputs u (Machine.framerTransmit s.inputs u
      (State.setContext slave p (State.loadPdu u slave p.pdu (s.enterQueue u)))) := by
    cases u
    · exact hloaded.framerTransmit rfl (Nat.ne_of_gt hpos) (Memory.readRange_writeList ..)
    · exact hloaded.framerTransmit rfl (Nat.ne_of_gt hpos) (Memory.readRange_writeList ..)
  rw [Machine.sendRequest, State.andThen_of_ok _ hsent.fault]
  have hmst := hsent.inv.mst.requested (nowTick_lt _ s.inputs) slave p.readAddress p.writeAddress p.writeCount
  refine (hsent.inv.with_mst ?_).answer _
  rw [framerTransmit_mst] at hmst ⊢
  exact hmst

theorem State.Inv.masterRequest (hf : s.fault = none) (slave : Byte) (p : RequestPlan)
    (hpos : 1 ≤ p.pdu.length) : (masterRequest s.inputs slave p s).Inv := by
  unfold Machine.masterRequest
  split
  · exact h.raise _
  refine iteInduction (fun _ => h.answer _) fun hst => iteInduction (fun _ => h.answer _) fun _ =>
    iteInduction (fun _ => h.answer _) fun hcap => iteInduction (fun _ => h.raise _) fun hc =>
    iteInduction (fun _ => h.answer _) fun hb => ?_
  exact h.sendRequest hf (not_not.1 hst) slave p hpos (Nat.not_lt.1 hcap) (by simpa using hc) (by simpa using hb)

/-- M_POLL (rule R470). -/
theorem State.Inv.masterPoll (env : Inputs) : (masterPoll env s).Inv := by
  have hidle {st : MstSt} (hst : st = .idle ∨ st = .processingError) : MstInv s.cfg { s.mst with st := st } := by
    obtain rfl | rfl := hst <;> exact { h.mst with visible := nofun, unicast := nofun, broadcast := nofun }
  have hverdict : verdictSt env = .idle ∨ verdictSt env = .processingError := by
    unfold verdictSt; split <;> simp
  simp only [Machine.masterPoll]
  split
  · refine iteInduction (fun _ => ?_) fun _ => h.answer _
    exact (((h.emit .timeout).emit (.verdict env.verdict)).with_mst (hidle hverdict)).answer _
  · refine iteInduction (fun _ => ?_) fun _ => h.answer _
    exact ((h.emit .turnaroundDone).with_mst (hidle (.inl rfl))).answer _
  all_goals exact h.answer _

/-! ### POLL and whole frames -/

theorem State.Inv.rtuPoll {env : Inputs} (hf : s.fault = none) (hv : env.verdict = s.inputs.verdict) :
    (rtuPoll env s).Inv := by
  by_cases hc : s.rtu.configured = true
  swap
  · rw [Machine.rtuPoll, if_neg hc]; exact h.raise _
  by_cases hx : s.rtu.st = .exception
  · rw [Machine.rtuPoll, if_pos hc, if_pos hx]; exact h.answer _
  have hunder : Underway env .rtu s := ⟨h, hf, hc, by simpa [State.exceptionOut] using hx, hv⟩
  obtain ⟨t, ht, e⟩ := hunder.exists_rtuPoll
  rw [e]
  exact ht.inv.answer _

theorem State.Inv.ascPoll {env : Inputs} (hf : s.fault = none) (hv : env.verdict = s.inputs.verdict) :
    (ascPoll env s).Inv := by
  by_cases hx : s.asc.st = .exception
  · rw [Machine.ascPoll, if_pos hx]; exact h.answer _
  have hunder : Underway env .ascii s := ⟨h, hf, rfl, by simpa [State.exceptionOut] using hx, hv⟩
  obtain ⟨t, ht, e⟩ := hunder.exists_ascPoll
  rw [e]
  exact ht.inv.answer _

/-- A whole frame on the RTU line is two POLLs. -/
theorem State.Inv.rtuLineFrame (hf : s.fault = none) (bytes : List Byte) : (rtuLineFrame s.inputs bytes s).Inv := by
  have hfirst := h.rtuPoll (env := s.inputs.reading bytes) hf rfl
  rw [Machine.rtuLineFrame]
  obtain ⟨-, -, e⟩ | ⟨hn, e⟩ := State.andThen_cases (Machine.rtuPoll (s.inputs.reading bytes) s) _ <;> rw [e]
  · exact hfirst
  · exact hfirst.rtuPoll hn (by rw [(touches_rtuPoll ..).inputs]; rfl)

theorem State.Inv.replyArrives (hf : s.fault = none) (p : List Byte) : (replyArrives s.inputs p s).Inv := by
  unfold Machine.replyArrives
  split
  · exact h.raise _
  · exact h.rtuLineFrame hf _
  · exact h.ascPoll hf rfl

end Bodies

/-- SET_TIMEOUT on a block without ticks, where the framer is in `exception` already (rules R302, R327). -/
theorem AscInv.untimedSet {c : Config} {a : AscFramer} (h : AscInv c a) (hu : c.usPerTick = 0) :
    AscInv c { a with st := .exception, bufferLen := 0, txen := false } :=
  { h with
    lenCap := Nat.zero_le _, untimed := iff_of_true rfl hu, empty := fun _ => rfl, started := by simp, summed := by simp
    delayed := by simp, enabled := rfl, sending := nofun, sendStart := by simp, sendPdu := by simp, ready := by simp }

section Exec

variable {s : State} (h : s.Inv)
include h

theorem State.Inv.invAfter_rtuReset : InvAfter (execRtuReset s) :=
  h.invAfter_command fun h _ =>
    h.with_rtu (.of_reset (nowTick_lt ..) h.rtu.bufWf h.rtu.bufBound) fun _ => by simp [RtuFramer.reset]

theorem State.Inv.invAfter_ascReset : InvAfter (execAscReset s) := by
  refine h.invAfter_command fun {s} h _ => ?_
  have ht : State.Inv { s with asc := AscFramer.reset s.cfg (nowTick s.cfg s.inputs) s.asc.buf } :=
    h.with_asc (.of_reset h.cfg (nowTick_lt ..) h.asc.bufWf h.asc.bufBound) fun _ => by
      simp only [AscFramer.reset]; split <;> simp
  exact iteInduction (fun _ => ht.emit _) fun _ => ht

theorem State.Inv.invAfter_rtuSetup (baud ifdUs icdUs : Word32) : InvAfter (execRtuSetup baud ifdUs icdUs s) := by
  refine h.invAfter_command fun h _ => iteInduction (fun _ => ?_) fun _ => ?_
  · exact ((h.with_rtu (h.rtu.setupInvalid (nowTick_lt ..) baud ifdUs icdUs) fun _ => by simp).emit _).answer _
  · exact (h.with_rtu (h.rtu.setup h.cfg (nowTick_lt ..) baud ifdUs icdUs _ _) fun _ => by simp).answer _

theorem State.Inv.invAfter_ascSetTimeout (ms : Word32) : InvAfter (execAscSetTimeout ms s) := by
  refine h.invAfter_command fun {s} h _ => iteInduction (fun hu => ?_) fun hu => ?_
  · exact ((h.with_asc (h.asc.untimedSet hu) fun _ => by simp).emit _).answer _
  · have hx : s.asc.st ≠ .exception := fun hx => hu (h.asc.untimed.1 hx)
    have hb := h.bound .ascii
    dsimp only
    rw [if_neg hx]
    exact (h.with_asc (h.asc.retimed h.cfg ms) hb).answer _

theorem State.Inv.invAfter_rtuBeginSend : InvAfter (execRtuBeginSend s) :=
  h.invAfter_command fun h hf => iteInduction
    (fun hc => iteInduction (fun hb => (h.enterQueue (u := .rtu) hf hc hb).answer _) fun _ => h.answer _) fun _ => h.raise _

theorem State.Inv.invAfter_ascBeginSend : InvAfter (execAscBeginSend s) :=
  h.invAfter_command fun h hf => iteInduction (fun hb => (h.enterQueue hf rfl hb).answer _) fun _ => h.answer _

theorem State.Inv.invAfter_rtuSend : InvAfter (execRtuSend s) :=
  h.invAfter_command fun h hf => iteInduction (fun _ => iteInduction
    (fun hc => State.andThen_keeps (h.framerTransmit hf hc) fun h => h.answer _) fun _ => h.answer _) fun _ => h.raise _

theorem State.Inv.invAfter_ascSend : InvAfter (execAscSend s) :=
  h.invAfter_command fun h hf => iteInduction
    (fun hc => State.andThen_keeps (h.framerTransmit hf hc) fun h => h.answer _) fun _ => h.answer _

theorem State.Inv.invAfter_rtuPoll : InvAfter (execRtuPoll s) := by
  rintro _ ⟨⟩
  exact h.command fun h hf => h.rtuPoll hf rfl

theorem State.Inv.invAfter_ascPoll : InvAfter (execAscPoll s) := by
  rintro _ ⟨⟩
  exact h.command fun h hf => h.ascPoll hf rfl

/-- The host's access checks (rules R106, R107). -/
theorem State.Inv.hostAccess {u : FramerKind} {access : State → State} (ha : s.owner u = .host → (access s).Inv) :
    (hostAccess u access s).Inv :=
  iteInduction (fun _ => h.raise _) fun _ => iteInduction (fun _ => h.raise _) fun ho => ha (not_not.1 ho)

theorem State.Inv.invAfter_bufRead (u : FramerKind) (i : Word16) : InvAfter (execBufRead u i s) :=
  h.invAfter_command fun {s} h _ => h.hostAccess fun _ => by
    cases s.bufRead u i.toNat
    · exact h.raise _
    · exact h.answer _

theorem State.Inv.invAfter_bufWrite (u : FramerKind) (i : Word16) (v : Byte) : InvAfter (execBufWrite u i v s) :=
  h.invAfter_command fun h _ => h.hostAccess fun ho => h.bufWrite_of_owner ho _ v

theorem State.Inv.invAfter_setFrame (u : FramerKind) (a : Byte) (n : Word16) : InvAfter (execSetFrame u a n s) :=
  h.invAfter_command fun h _ => iteInduction (fun _ => h.raise _) fun _ => iteInduction (fun _ => h.raise _) fun hq =>
    iteInduction (fun _ => h.raise _) fun hn =>
      h.setFrameFields_of_queue (by simpa using hq) a (Nat.not_lt.1 hn)

theorem State.Inv.invAfter_mAckError : InvAfter (execMAckError s) := by
  refine h.invAfter_masterCommand fun {s} h => iteInduction (fun _ => ?_) fun _ => h.answer _
  have hm : MstInv s.cfg { s.mst with st := .idle } :=
    { h.mst with visible := nofun, unicast := nofun, broadcast := nofun }
  exact ((h.with_mst hm).emit .ack).answer _

theorem State.Inv.invAfter_request (slave : Byte) {p : RequestPlan} (hpos : 1 ≤ p.pdu.length) :
    InvAfter (requestCommand slave p s) :=
  h.invAfter_command fun h hf => h.masterRequest hf slave p hpos

theorem State.Inv.invAfter_checkedRequest (ok : Bool) (slave : Byte) {p : RequestPlan} (hpos : 1 ≤ p.pdu.length) :
    InvAfter (checkedRequest ok slave p s) :=
  h.invAfter_command fun h hf => iteInduction (fun _ => h.masterRequest hf slave p hpos) fun _ => h.raise _

theorem State.Inv.invAfter_reply (p : List Byte) : InvAfter (replyCommand p s) :=
  h.invAfter_command fun h hf => h.replyArrives hf p

/-- Every instruction keeps the invariant of the block. -/
theorem State.Inv.invAfter_exec : ∀ i : Instr, InvAfter (exec i s)
  | .rtuReset => h.invAfter_rtuReset
  | .ascReset => h.invAfter_ascReset
  | .rtuSetup b f c => h.invAfter_rtuSetup b f c
  | .ascSetTimeout ms => h.invAfter_ascSetTimeout ms
  | .rtuSetStationAddress _ => h.invAfter_command fun h _ => h.with_rtu { h.rtu with } (h.bound .rtu)
  | .ascSetStationAddress _ => h.invAfter_command fun h _ => h.with_asc { h.asc with } (h.bound .ascii)
  | .rtuPoll => h.invAfter_rtuPoll
  | .ascPoll => h.invAfter_ascPoll
  | .rtuBeginSend => h.invAfter_rtuBeginSend
  | .ascBeginSend => h.invAfter_ascBeginSend
  | .rtuSend => h.invAfter_rtuSend
  | .ascSend => h.invAfter_ascSend
  | .rtuFinished => h.invAfter_command fun h _ => h.rtuFinished
  | .ascFinished => h.invAfter_command fun h _ => h.ascFinished
  | .bufRead u i => h.invAfter_bufRead u i
  | .bufWrite u i v => h.invAfter_bufWrite u i v
  | .setFrame u a n => h.invAfter_setFrame u a n
  | .readStatus _ => h.invAfter_command fun h _ => h.answer _
  | .mReset => h.invAfter_masterCommand fun h => h.with_mst (.of_reset (nowTick_lt ..))
  | .mSetResponseTimeout _ => h.invAfter_masterCommand fun h => h.with_mst { h.mst with rtTick := msToTicks_lt .. }
  | .mSetTurnaround _ => h.invAfter_masterCommand fun h => h.with_mst { h.mst with taTick := msToTicks_lt .. }
  | .mPoll => h.invAfter_masterCommand fun h => h.masterPoll _
  | .mAckError => h.invAfter_mAckError
  | .mReadStatus => h.invAfter_masterCommand fun h => h.answer _
  | .readCoils .. | .readDiscreteInputs .. | .readHoldingRegisters .. | .readInputRegisters .. | .writeSingleRegister ..
  | .pduReqReadCoils .. | .pduReqReadDiscreteInputs .. | .pduReqReadHoldingRegisters .. | .pduReqReadInputRegisters ..
  | .pduReqWriteSingleRegister .. => h.invAfter_request _ (Nat.succ_pos _)
  | .writeSingleCoil .. | .writeMultipleCoils .. | .writeMultipleRegisters .. | .readWriteMultipleRegisters ..
  | .pduReqWriteSingleCoil .. | .pduReqWriteMultipleCoils .. | .pduReqWriteMultipleRegisters ..
  | .pduReqReadWriteMultipleRegisters .. => h.invAfter_checkedRequest _ _ (Nat.succ_pos _)
  | .pduRspReadCoils .. | .pduRspReadDiscreteInputs .. | .pduRspReadHoldingRegisters .. | .pduRspReadInputRegisters ..
  | .pduRspWriteSingleCoil .. | .pduRspWriteSingleRegister .. | .pduRspWriteMultipleCoils ..
  | .pduRspWriteMultipleRegisters .. | .pduRspReadWriteMultipleRegisters .. | .pduRspException .. | .pduRspOther .. =>
      h.invAfter_reply _
  | .rtuAdu .. => h.invAfter_command fun h hf => h.rtuLineFrame hf _
  | .asciiAdu .. => h.invAfter_command fun h hf => h.ascPoll hf rfl

/-- So does a message that its port's decoder refuses. -/
theorem State.Inv.invAfter_undecoded (m : List Byte) : ∀ p : Port, InvAfter (.next (undecoded p m s))
  | .rtu | .asc | .mst | .request => h.invAfter_command fun h _ => h.raise _
  | .reply => h.invAfter_command fun h hf => h.replyArrives hf m
  | .rtuLine => h.invAfter_command fun h hf => h.rtuLineFrame hf m
  | .ascLine => h.invAfter_command fun h hf => h.ascPoll hf rfl

end Exec

/-- Settles O10: taking up a message changes no register, and then an instruction or an undecoded message keeps the
invariant. -/
theorem invariantKeptByEveryStep : Obligations.InvariantKeptByEveryStep := by
  intro s t h e
  cases hp : s.pending with
  | nil =>
    rw [step_of_no_message hp] at e
    cases e
    exact h
  | cons r rest =>
    have hbegin : (s.begin r rest).Inv := ⟨h.cfg, h.rtu, h.asc, h.mst, h.bound⟩
    cases hd : decode r.port r.message with
    | none => exact hbegin.invAfter_undecoded r.message r.port t (step_of_decode_eq_none hp hd ▸ e)
    | some i => exact hbegin.invAfter_exec i t (step_of_decode hp hd ▸ e)

end Sys2Proof.Machine
end

section
/-! PROOFS. What the timers and the drain of a POLL do not look at: the stream and the result that the state holds (for O46,
where two POLLs at one tick are one). -/

namespace Sys2Proof.Machine

/-! ### The state as a command finds it -/

/-- `s` as a command finds it, with the answers `i` of the outside agents (rule R185). -/
def State.asking (i : Inputs) (s : State) : State := { s with inputs := i, result := .none }

section Asking

variable {env i : Inputs} {s s' : State}

/-- A choice between two operations. -/
theorem State.asking_ite {c : Prop} [Decidable c] {a b a' b' : State} (ha : a' = a.asking i) (hb : b' = b.asking i) :
    (if c then a' else b') = (if c then a else b).asking i := by
  split
  · exact ha
  · exact hb

/-- The rest of a command. -/
theorem State.asking_andThen {f : State → State} (hs : s' = s.asking i) (hf : f (s.asking i) = (f s).asking i) :
    s'.andThen f = (s.andThen f).asking i := by
  subst hs
  exact State.asking_ite (c := s.fault.isSome) rfl hf

variable (h : s' = s.asking i)
include h

theorem bufWrite_asking (u : FramerKind) (k : Nat) (v : Byte) : s'.bufWrite u k v = (s.bufWrite u k v).asking i := by
  subst h
  cases u <;> exact State.asking_ite rfl rfl

theorem framerFinished_asking (u : FramerKind) : framerFinished u s' = (framerFinished u s).asking i := by
  subst h
  cases u
  · exact State.asking_ite (State.asking_ite rfl rfl) rfl
  · exact State.asking_ite rfl rfl

theorem processReply_asking (u : FramerKind) : processReply u env s' = (processReply u env s).asking i := by
  subst h
  have hbuf : ((s.asking i).buf u).readRange 0 ((s.asking i).bufferLen u) = (s.buf u).readRange 0 (s.bufferLen u) := by
    cases u <;> rfl
  have hdec (p : List Byte) : decodeReply (s.asking i).mst p = decodeReply s.mst p := rfl
  unfold processReply
  simp only [hbuf, hdec]
  split
  · rfl
  · split <;> exact State.asking_andThen (framerFinished_asking (by rfl) u) rfl

theorem notifyMaster_asking (u : FramerKind) : notifyMaster u env s' = (notifyMaster u env s).asking i := by
  subst h
  have hlen : (s.asking i).bufferLen u = s.bufferLen u := by cases u <;> rfl
  have haddr : (s.asking i).frameAddress u = s.frameAddress u := by cases u <;> rfl
  unfold notifyMaster frameReadyStep
  rw [hlen, haddr]
  exact State.asking_ite (State.asking_ite (framerFinished_asking (by rfl) u)
    (State.asking_ite (framerFinished_asking (by rfl) u) (processReply_asking (by rfl) u))) rfl

/-! ### RTU -/

theorem rtuFrameEnd_asking : rtuFrameEnd env s' = (rtuFrameEnd env s).asking i := by
  subst h
  exact State.asking_ite rfl (State.asking_ite rfl (State.asking_ite (notifyMaster_asking (by rfl) _) rfl))

theorem rtuPollTimers_asking : rtuPollTimers env s' = (rtuPollTimers env s).asking i := by
  subst h
  have hst : (s.asking i).rtu.st = s.rtu.st := rfl
  refine State.asking_ite (c := reached s.rtu.t35 (rtuElapsed env s) = true) ?_ rfl
  rw [hst]
  split
  · exact rtuFrameEnd_asking rfl
  · rfl
  · exact notifyMaster_asking (by rfl) _
  all_goals rfl

theorem rtuReceiveByte_asking (b : Byte) (gap : Nat) : rtuReceiveByte b gap s' = (rtuReceiveByte b gap s).asking i := by
  subst h
  exact State.asking_ite rfl (State.asking_ite (State.asking_ite rfl
    (State.asking_andThen (bufWrite_asking rfl ..) (by rfl))) (State.asking_ite rfl rfl))

theorem rtuOnByte_asking (b : Byte) : rtuOnByte env b s' = (rtuOnByte env b s).asking i := by
  subst h
  have hst : (s.asking i).rtu.st = s.rtu.st := rfl
  unfold rtuOnByte
  dsimp only
  rw [hst]
  split
  · rfl
  · exact rtuReceiveByte_asking (by rfl) ..
  all_goals rfl

theorem rtuReadError_asking : rtuReadError env s' = (rtuReadError env s).asking i := by
  subst h
  have hst : ((s.asking i).emitCause .rtu .rxTransport).rtu.st = (s.emitCause .rtu .rxTransport).rtu.st := rfl
  unfold rtuReadError
  dsimp only
  rw [hst]
  split <;> rfl

omit h in
theorem rtuDrain_asking : ∀ (bs : List Byte) {s s' : State}, s' = s.asking i →
    rtuDrain env bs s' = (rtuDrain env bs s).asking i
  | [], _, _, h => State.asking_ite (rtuReadError_asking h) h
  | b :: bs, _, _, h => State.asking_andThen (rtuOnByte_asking h b) (rtuDrain_asking bs rfl)

/-! ### ASCII -/

theorem ascPollTimers_asking : ascPollTimers env s' = (ascPollTimers env s).asking i := by
  subst h
  exact State.asking_ite (State.asking_ite rfl (State.asking_ite (notifyMaster_asking (by rfl) _) rfl)) rfl

theorem ascFrameEnd_asking : ascFrameEnd env s' = (ascFrameEnd env s).asking i := by
  subst h
  exact State.asking_ite rfl (State.asking_ite rfl (State.asking_ite (notifyMaster_asking (by rfl) _) rfl))

theorem ascDecodedByte_asking (v : Byte) : ascDecodedByte v s' = (ascDecodedByte v s).asking i := by
  subst h
  exact State.asking_ite (State.asking_ite rfl (State.asking_andThen (bufWrite_asking rfl ..) (by rfl))) rfl

theorem ascReceiveChar_asking (c : Byte) : ascReceiveChar env c s' = (ascReceiveChar env c s).asking i := by
  subst h
  have hst : (s.asking i).asc.st = s.asc.st := rfl
  unfold ascReceiveChar
  rw [hst]
  split
  · rfl
  · rfl
  · rfl
  · exact ascDecodedByte_asking rfl _
  · exact State.asking_ite rfl rfl
  · exact State.asking_ite (ascFrameEnd_asking rfl) rfl
  · rfl

theorem ascOnChar_asking (c : Byte) : ascOnChar env c s' = (ascOnChar env c s).asking i := by
  subst h
  have hst : (s.asking i).asc.st = s.asc.st := rfl
  unfold ascOnChar
  dsimp only
  rw [hst]
  split
  · exact State.asking_ite rfl rfl
  iterate 5 exact State.asking_ite rfl (ascReceiveChar_asking (by rfl) c)
  all_goals rfl

theorem ascReadError_asking : ascReadError s' = (ascReadError s).asking i := by
  subst h
  exact State.asking_ite rfl rfl

omit h in
theorem ascDrain_asking : ∀ (cs : List Byte) {s s' : State}, s' = s.asking i →
    ascDrain env cs s' = (ascDrain env cs s).asking i
  | [], _, _, h => State.asking_ite (ascReadError_asking h) h
  | c :: cs, _, _, h => State.asking_andThen (ascOnChar_asking h c) (ascDrain_asking cs rfl)

end Asking
end Sys2Proof.Machine
end

section
/-! PROOFS. A framer that does not transmit, after its timers have acted: what it reads at the same tick gives them nothing
more to do (rules R211, R212, R305, R306). -/

namespace Sys2Proof.Machine

/-! ### What the engine does to a framer: nothing but FINISHED -/

/-- A property of the framers that FINISHED keeps is kept by the frame-ready step (rules R450 to R455). -/
theorem notifyMaster_keeps {P : State → Prop} {u : FramerKind} {env : Inputs} {s : State}
    (hother : ∀ (s : State) (m : Master) (f : Option Fault) (ev : List Event) (r : Result), P s →
      P { s with mst := m, fault := f, events := ev, result := r })
    (hfinished : ∀ s : State, P s → P (framerFinished u s)) (h : P s) : P (notifyMaster u env s) := by
  have hemit (s : State) (e : Event) (h : P s) : P (s.emit e) := hother s s.mst s.fault (s.events ++ [e]) s.result h
  have hmst (s : State) (m : Master) (h : P s) : P { s with mst := m } := hother s m s.fault s.events s.result h
  unfold notifyMaster frameReadyStep
  refine iteInduction (fun _ => ?_) fun _ => h
  refine iteInduction (fun _ => hfinished _ (hemit _ _ h)) fun _ => ?_
  refine iteInduction (fun _ => hfinished _ (hmst _ _ (hemit _ _ h))) fun _ => ?_
  unfold processReply
  split
  · exact hother _ _ _ _ _ (hmst _ _ h)
  · split
    · exact State.andThen_keeps (hfinished _ (hemit _ _ (hemit _ _ (hmst _ _ h)))) (hmst _ _)
    · exact State.andThen_keeps (hfinished _ (hemit _ _ (hmst _ _ h))) (hmst _ _)

/-! ### RTU -/

/-- The states that T3.5 of silence ends (rule R212). -/
def RtuSt.timed : RtuSt → Bool
  | .receive | .dump | .collision | .txWait => true
  | .exception | .idle | .frameReady | .queue | .txAddr | .txPdu | .txCrc | .txDrain => false

/-- `env` with what the stream returns to a POLL. -/
def Inputs.hearing (env : Inputs) (rx : List Byte) (err : Bool) : Inputs := { env with rx := rx, rxError := err }

/-- A configured RTU framer that does not transmit and whose timers have acted at tick `env.now`. -/
structure RtuListening (env : Inputs) (s : State) : Prop where
  configured : s.rtu.configured = true
  live : s.rtu.st ≠ .exception
  silent : s.rtu.st.transmitting = false
  ticks : s.rtu.t35 ≠ some 0
  settled : s.rtu.st.timed = true → reached s.rtu.t35 (rtuElapsed env s) = false

/-- A threshold that is a tick count is not reached at once. -/
theorem reached_zero {t : Option Nat} (h : t ≠ some 0) : reached t 0 = false := by
  cases t with
  | none => rfl
  | some t => simpa [reached] using h

theorem RtuSt.timed_of_transmitting {st : RtuSt} (h : st.transmitting = true) : st.timed = false := by
  revert h
  cases st <;> simp [RtuSt.transmitting, RtuSt.timed]

section Rtu

variable {env : Inputs} {s : State}

/-- Before T3.5 of silence the timers do nothing. -/
theorem rtuPollTimers_open (h : reached s.rtu.t35 (rtuElapsed env s) = false) : rtuPollTimers env s = s := by
  rw [rtuPollTimers, h, if_neg Bool.false_ne_true]

/-- A state that no timer ends. -/
theorem rtuPollTimers_untimed (h : s.rtu.st.timed = false) : rtuPollTimers env s = s := by
  revert h
  unfold rtuPollTimers
  cases s.rtu.st <;> simp [RtuSt.timed]

/-- The elapsed time after a restamp is 0 (rules R209, R214). -/
theorem rtuElapsed_of_stamped (hl : s.rtu.last = nowTick s.cfg env) : rtuElapsed env s = 0 := by
  rw [rtuElapsed, hl, tickDiff_self]

/-- A framer that has been stamped in this command, or is in a state that no timer ends. -/
theorem RtuListening.of_state {t : State} (hc : t.rtu.configured = true) (ht : t.rtu.t35 ≠ some 0)
    (hx : t.rtu.st ≠ .exception) (hsilent : t.rtu.st.transmitting = false)
    (hl : t.rtu.st.timed = false ∨ t.rtu.last = nowTick t.cfg env) : RtuListening env t := by
  refine ⟨hc, hx, hsilent, ht, fun htimed => ?_⟩
  obtain hl | hl := hl
  · rw [hl] at htimed; exact absurd htimed Bool.false_ne_true
  · rw [rtuElapsed_of_stamped hl]; exact reached_zero ht

theorem RtuListening.with_others (s : State) (m : Master) (f : Option Fault) (ev : List Event) (r : Result)
    (h : RtuListening env s) : RtuListening env { s with mst := m, fault := f, events := ev, result := r } :=
  ⟨h.configured, h.live, h.silent, h.ticks, h.settled⟩

theorem RtuListening.framerFinished (s : State) (h : RtuListening env s) :
    RtuListening env (framerFinished .rtu s) := by
  refine iteInduction (fun hc => iteInduction (fun _ => ?_) fun _ => h) fun _ => h.with_others _ s.mst _ s.events _
  exact .of_state hc h.ticks nofun rfl (.inl rfl)

section Timers

variable (hc : s.rtu.configured = true) (ht : s.rtu.t35 ≠ some 0)
include hc ht

theorem RtuListening.rtuReject (c : Cause) : RtuListening env (rtuReject c s) := .of_state hc ht nofun rfl (.inl rfl)

theorem RtuListening.rtuFrameEnd : RtuListening env (rtuFrameEnd env s) := by
  refine iteInduction (fun _ => rtuReject hc ht _) fun _ => iteInduction (fun _ => rtuReject hc ht _) fun _ =>
    iteInduction (fun _ => ?_) fun _ => rtuReject hc ht _
  exact notifyMaster_keeps with_others RtuListening.framerFinished (.of_state hc ht nofun rfl (.inl rfl))

/-- The timers act on every window that has elapsed (rule R212). -/
theorem RtuListening.rtuPollTimers (hx : s.rtu.st ≠ .exception) (hsilent : s.rtu.st.transmitting = false) :
    RtuListening env (rtuPollTimers env s) := by
  unfold Machine.rtuPollTimers
  split
  next =>
    split
    · exact rtuFrameEnd hc ht
    · exact .of_state hc ht nofun rfl (.inl rfl)
    · exact notifyMaster_keeps with_others RtuListening.framerFinished (.of_state hc ht nofun rfl (.inl rfl))
    · exact .of_state hc ht nofun rfl (.inl rfl)
    all_goals next hst => exact .of_state hc ht hx hsilent (.inl (by rw [hst]; rfl))
  next hr => exact ⟨hc, hx, hsilent, ht, fun _ => by simpa using hr⟩

end Timers

section Drain

variable (h : RtuListening env s)
include h

/-- The timers have nothing more to do at the same tick. -/
theorem RtuListening.rtuPollTimers_eq : Machine.rtuPollTimers env s = s := by
  cases ht : s.rtu.st.timed with
  | true => exact rtuPollTimers_open (h.settled ht)
  | false => exact rtuPollTimers_untimed ht

theorem RtuListening.rtuReceiveByte (hl : s.rtu.last = nowTick s.cfg env) (b : Byte)
    (gap : Nat) : RtuListening env (rtuReceiveByte b gap s) := by
  have dump (c : Cause) : RtuListening env (rtuDump c s) := .of_state h.configured h.ticks nofun rfl (.inr hl)
  refine iteInduction (fun _ => dump _) fun _ => iteInduction (fun _ => iteInduction (fun _ => dump _) fun _ => ?_)
    fun _ => iteInduction (fun _ => .of_state h.configured h.ticks h.live h.silent (.inr hl)) fun _ =>
      .of_state h.configured h.ticks h.live h.silent (.inr hl)
  obtain ⟨-, e⟩ | ⟨-, e⟩ := bufWrite_cases s .rtu s.rtu.bufferLen s.rtu.hold0 <;> rw [rtuCommit, e]
  · refine State.andThen_keeps ?_ fun h => ?_
    · exact .of_state h.configured h.ticks h.live h.silent (.inr hl)
    · exact .of_state h.configured h.ticks h.live h.silent (.inr hl)
  · exact h.with_others _ s.mst _ s.events _

theorem RtuListening.rtuOnByte (b : Byte) : RtuListening env (rtuOnByte env b s) := by
  have hstamp : RtuListening env { s with rtu := { s.rtu with last := nowTick s.cfg env } } :=
    .of_state h.configured h.ticks h.live h.silent (.inr rfl)
  unfold Machine.rtuOnByte
  dsimp only
  split
  next => exact .of_state h.configured h.ticks nofun rfl (.inr rfl)
  next => exact hstamp.rtuReceiveByte rfl b _
  next => exact .of_state h.configured h.ticks nofun rfl (.inr rfl)
  all_goals exact hstamp

theorem RtuListening.rtuReadError : RtuListening env (rtuReadError env s) := by
  have herr := h.with_others s s.mst s.fault (s.events ++ [.cause .rtu .rxTransport]) s.result
  unfold Machine.rtuReadError
  dsimp only
  split
  iterate 3 exact .of_state h.configured h.ticks nofun rfl (.inr rfl)
  all_goals exact herr

omit h in
theorem RtuListening.rtuDrain {rx : List Byte} {e : Bool} : ∀ (bs : List Byte) {s : State}, RtuListening env s →
    RtuListening env (rtuDrain (env.hearing rx e) bs s)
  | [], _, h => iteInduction (fun _ => h.rtuReadError) fun _ => h
  | b :: bs, _, h => State.andThen_keeps (h.rtuOnByte b) (RtuListening.rtuDrain bs)

end Drain

end Rtu
end Sys2Proof.Machine
end

section
/-! PROOFS. The same for the ASCII framer. -/

namespace Sys2Proof.Machine

/-- The states that the frame timeout ends (rule R306). -/
def AscSt.timed (st : AscSt) : Prop := st.receiving = true ∨ st = .collision

/-- An ASCII framer that does not transmit and whose timers have acted at tick `env.now`. -/
structure AscListening (env : Inputs) (s : State) : Prop where
  live : s.asc.st ≠ .exception
  silent : s.asc.st.transmitting = false
  ticks : s.asc.timeoutTicks ≠ 0
  settled : s.asc.st.timed → ascElapsed env s < s.asc.timeoutTicks

section Ascii

variable {env : Inputs} {s : State}

/-- The ASCII timers leave a state alone that no timeout ends, or whose window is open (rule R306). -/
theorem ascPollTimers_eq (h : s.asc.st.timed → ascElapsed env s < s.asc.timeoutTicks) : ascPollTimers env s = s := by
  unfold ascPollTimers
  split
  next hle =>
    have hst : ¬ s.asc.st.timed := fun hst => absurd (h hst) (by omega)
    rw [if_neg fun e => hst (.inl e), if_neg fun e => hst (.inr e)]
  next => rfl

/-- The elapsed time after a restamp is 0 (rules R304, R307). -/
theorem ascElapsed_of_stamped (hl : s.asc.last = nowTick s.cfg env) : ascElapsed env s = 0 := by
  rw [ascElapsed, hl, tickDiff_self]

/-- A framer that has been stamped in this command, or is in a state that no timer ends. -/
theorem AscListening.of_state {t : State} (ht : t.asc.timeoutTicks ≠ 0) (hx : t.asc.st ≠ .exception)
    (hsilent : t.asc.st.transmitting = false) (hl : ¬ t.asc.st.timed ∨ t.asc.last = nowTick t.cfg env) :
    AscListening env t := by
  refine ⟨hx, hsilent, ht, fun htimed => ?_⟩
  obtain hl | hl := hl
  · exact absurd htimed hl
  · rw [ascElapsed_of_stamped hl]; omega

/-- A framer at rest. -/
theorem AscListening.of_idle {t : State} (ht : t.asc.timeoutTicks ≠ 0) (hst : t.asc.st = .idle ∨ t.asc.st = .frameReady) :
    AscListening env t := by
  obtain hst | hst := hst <;> exact .of_state ht (by simp [hst]) (by rw [hst]; rfl)
    (.inl (by simp [hst, AscSt.timed, AscSt.receiving]))

theorem AscListening.with_others (s : State) (m : Master) (f : Option Fault) (ev : List Event) (r : Result)
    (h : AscListening env s) : AscListening env { s with mst := m, fault := f, events := ev, result := r } :=
  ⟨h.live, h.silent, h.ticks, h.settled⟩

theorem AscListening.framerFinished (s : State) (h : AscListening env s) :
    AscListening env (framerFinished .ascii s) :=
  iteInduction (fun _ => .of_idle h.ticks (.inl rfl)) fun _ => h

section Timers

variable (ht : s.asc.timeoutTicks ≠ 0)
include ht

theorem AscListening.ascDiscard (c : Cause) : AscListening env (ascDiscard c s) := .of_idle ht (.inl rfl)

theorem AscListening.ascFrameEnd : AscListening env (ascFrameEnd env s) := by
  refine iteInduction (fun _ => ascDiscard ht _) fun _ => iteInduction (fun _ => ascDiscard ht _) fun _ =>
    iteInduction (fun _ => ?_) fun _ => ascDiscard ht _
  exact notifyMaster_keeps with_others AscListening.framerFinished (.of_idle ht (.inr rfl))

/-- The timers act on a window that has elapsed (rule R306). -/
theorem AscListening.ascPollTimers (hx : s.asc.st ≠ .exception) (hsilent : s.asc.st.transmitting = false) :
    AscListening env (ascPollTimers env s) := by
  refine iteInduction (fun _ => ?_) fun hr => ⟨hx, hsilent, ht, fun _ => by omega⟩
  refine iteInduction (fun _ => ascDiscard ht _) fun hrec => iteInduction (fun _ => ?_) fun hcol => ?_
  · exact notifyMaster_keeps with_others AscListening.framerFinished (.of_idle ht (.inr rfl))
  · exact .of_state ht hx hsilent (.inl fun h => h.elim hrec hcol)

end Timers

section Drain

variable (h : AscListening env s)
include h

/-- The timers have nothing more to do at the same tick. -/
theorem AscListening.ascPollTimers_eq : Machine.ascPollTimers env s = s := Machine.ascPollTimers_eq h.settled

omit h in
/-- A framer that receives. -/
theorem AscListening.of_receiving {t : State} (ht : t.asc.timeoutTicks ≠ 0) (hst : t.asc.st.receiving = true)
    (hl : t.asc.last = nowTick t.cfg env) : AscListening env t :=
  .of_state ht (by rintro e; rw [e] at hst; exact absurd hst Bool.false_ne_true)
    (by revert hst; cases t.asc.st <;> simp [AscSt.receiving, AscSt.transmitting]) (.inr hl)

theorem AscListening.ascDecodedByte (hl : s.asc.last = nowTick s.cfg env) (v : Byte) :
    AscListening env (ascDecodedByte v s) := by
  refine iteInduction (fun _ => iteInduction (fun _ => ascDiscard h.ticks _) fun _ => ?_) fun _ =>
    .of_receiving h.ticks rfl hl
  obtain ⟨-, e⟩ | ⟨-, e⟩ := bufWrite_cases s .ascii s.asc.bufferLen s.asc.pend <;> rw [e]
  · refine State.andThen_keeps ?_ fun h => .of_receiving h.ticks rfl hl
    exact .of_state h.ticks h.live h.silent (.inr hl)
  · exact h.with_others _ s.mst _ s.events _

theorem AscListening.ascReceiveChar (hl : s.asc.last = nowTick s.cfg env) (c : Byte) :
    AscListening env (ascReceiveChar env c s) := by
  have rests (c : Cause) : AscListening env (Machine.ascDiscard c s) := ascDiscard h.ticks c
  unfold Machine.ascReceiveChar
  split
  · exact .of_receiving h.ticks rfl hl
  · exact .of_receiving h.ticks rfl hl
  · exact .of_receiving h.ticks rfl hl
  · exact h.ascDecodedByte hl _
  · exact iteInduction (fun _ => .of_receiving h.ticks rfl hl) fun _ => rests _
  · exact iteInduction (fun _ => ascFrameEnd h.ticks) fun _ => rests _
  · exact rests _

theorem AscListening.ascOnChar (c : Byte) : AscListening env (ascOnChar env c s) := by
  have hstamp : AscListening env { s with asc := { s.asc with last := nowTick s.cfg env } } :=
    .of_state h.ticks h.live h.silent (.inr rfl)
  unfold Machine.ascOnChar
  dsimp only
  split
  · exact iteInduction (fun _ => .of_receiving h.ticks rfl rfl) fun _ => hstamp
  iterate 5 exact iteInduction (fun _ => .of_receiving h.ticks rfl rfl) fun _ => hstamp.ascReceiveChar rfl c
  · exact .of_state h.ticks nofun rfl (.inr rfl)
  all_goals exact hstamp

theorem AscListening.ascReadError : AscListening env (ascReadError s) :=
  iteInduction (fun _ => .of_idle h.ticks (.inl rfl)) fun _ => h.with_others _ s.mst s.fault _ s.result

omit h in
theorem AscListening.ascDrain {rx : List Byte} {e : Bool} : ∀ (cs : List Byte) {s : State}, AscListening env s →
    AscListening env (ascDrain (env.hearing rx e) cs s)
  | [], _, h => iteInduction (fun _ => h.ascReadError) fun _ => h
  | c :: cs, _, h => State.andThen_keeps (h.ascOnChar c) (AscListening.ascDrain cs)

end Drain

end Ascii
end Sys2Proof.Machine
end

section
/-! PROOFS. O46: a POLL reads its stream in order. -/

namespace Sys2Proof.Machine

/-- `s` after a POLL that had the answers `i` and returns the deadline `d`, or a fault. -/
def State.polled (i : Inputs) (d : Nat) (s : State) : State :=
  { s with inputs := i, result := if s.fault.isSome then .none else .ticks d }

/-- The end of a POLL (rules R211, R305). -/
theorem State.asking_answer (i : Inputs) (d : Nat) (s : State) :
    (s.asking i).andThen (State.answer (.ticks d)) = s.polled i d := by
  cases h : s.fault <;> simp [State.polled, State.andThen, State.asking, State.answer, h]

theorem State.polled_of_ok {s : State} (h : s.fault = none) (i : Inputs) (d : Nat) :
    s.polled i d = (s.asking i).answer (.ticks d) := by
  simp [State.polled, State.asking, State.answer, h]

/-- Steps of a command, one after the other. -/
theorem State.andThen_assoc (s : State) (f g : State → State) :
    (s.andThen f).andThen g = s.andThen fun s => (f s).andThen g := by
  obtain ⟨r, hr, e⟩ | ⟨hn, e⟩ := State.andThen_cases s f <;> rw [e]
  · rw [State.andThen_of_fault _ hr, State.andThen_of_fault _ hr]
  · rw [State.andThen_of_ok _ hn]

/-- The rest of a command matters only where it runs. -/
theorem State.andThen_congr {s : State} {f g : State → State} (h : s.fault = none → f s = g s) :
    s.andThen f = s.andThen g := by
  obtain ⟨r, hr, e⟩ | ⟨hn, e⟩ := State.andThen_cases s f <;> rw [e]
  · exact (State.andThen_of_fault g hr).symm
  · rw [State.andThen_of_ok g hn, h hn]

/-- From the states of `Q`, with the agents of `env`, the POLL `i` reads as `read` does and returns `deadline`; it does not
look at what was in the stream or was returned before; and `read` takes one byte after the other. -/
structure PollReads (env : Inputs) (i : Instr) (Q : State → Prop) (read : List Byte → Bool → State → State)
    (deadline : State → Nat) : Prop where
  runs : ∀ (rx : List Byte) (err : Bool) (r : Result) (x : State), x.fault = none → Q x →
    exec i { x with inputs := env.hearing rx err, result := r } =
      .next ((read rx err x).polled (env.hearing rx err) (deadline (read rx err x)))
  keeps : ∀ (bs : List Byte) (x : State), Q x → Q (read bs false x)
  split : ∀ (bs cs : List Byte) (err : Bool) (x : State), x.fault = none → Q x →
    read (bs ++ cs) err x = (read bs false x).andThen (read cs err)

/-- In the faulted state a POLL has no effect (rule R630). -/
def StopsAtFaults (i : Instr) : Prop := ∀ (s : State) (r : Fault), s.fault = some r → exec i s = .next s

theorem stopsAtFaults_rtuPoll : StopsAtFaults .rtuPoll := fun _ _ h => congrArg _ (State.command_of_fault _ h)

theorem stopsAtFaults_ascPoll : StopsAtFaults .ascPoll := fun _ _ h => congrArg _ (State.command_of_fault _ h)

/-- The POLL that reads `bs ++ cs` does what the POLLs that read `bs` and then `cs` do. -/
def State.PollsInOrder (s : State) (i : Instr) (bs cs : List Byte) (err : Bool) : Prop :=
  ∃ t t', exec i (s.hearing bs false) = .next t ∧ exec i (t.hearing cs err) = .next t' ∧
    exec i (s.hearing (bs ++ cs) err) = .next (t'.hearing (bs ++ cs) err)

theorem StopsAtFaults.inOrder {i : Instr} (h : StopsAtFaults i) {s : State} {r : Fault} (hr : s.fault = some r)
    (bs cs : List Byte) (err : Bool) : s.PollsInOrder i bs cs err :=
  ⟨_, _, h _ r hr, h _ r hr, h _ r hr⟩

theorem PollReads.inOrder {i : Instr} {Q : State → Prop} {read : List Byte → Bool → State → State}
    {deadline : State → Nat} {s : State} (h : PollReads s.inputs i Q read deadline) (hstop : StopsAtFaults i)
    (hf : s.fault = none) (hQ : Q s) (bs cs : List Byte) (err : Bool) : s.PollsInOrder i bs cs err := by
  have hthird := h.runs (bs ++ cs) err s.result s hf hQ
  rw [h.split bs cs err s hf hQ] at hthird
  obtain ⟨r, hr, e⟩ | ⟨hn, e⟩ := State.andThen_cases (read bs false s) (read cs err) <;> rw [e] at hthird
  · refine ⟨_, _, h.runs bs false s.result s hf hQ, hstop _ r hr, hthird.trans ?_⟩
    simp [State.polled, State.hearing, Inputs.hearing, hr]
  · exact ⟨_, _, h.runs bs false s.result s hf hQ, h.runs cs err _ (read bs false s) hn (h.keeps bs s hQ), hthird⟩

/-! ### RTU -/

/-- The timers and the drain of an RTU POLL. -/
def rtuRead (env : Inputs) (rx : List Byte) (err : Bool) (s : State) : State :=
  (rtuPollTimers env s).andThen (rtuDrain (env.hearing rx err) rx)

/-- A drain looks at its bytes, not at the stream. -/
theorem rtuDrain_hearing (env : Inputs) (err : Bool) (rx rx' : List Byte) : ∀ (cs : List Byte) (s : State),
    rtuDrain (env.hearing rx err) cs s = rtuDrain (env.hearing rx' err) cs s
  | [], _ => rfl
  | c :: cs, s => congrArg (rtuOnByte env c s).andThen (funext fun s => rtuDrain_hearing env err rx rx' cs s)

/-- Reading `bs ++ cs` is reading `bs`, then `cs`. -/
theorem rtuDrain_split (env : Inputs) (rx rx' rx'' cs : List Byte) (err : Bool) : ∀ (bs : List Byte) (s : State),
    s.fault = none → rtuDrain (env.hearing rx err) (bs ++ cs) s =
      (rtuDrain (env.hearing rx' false) bs s).andThen (rtuDrain (env.hearing rx'' err) cs)
  | [], s, hf => (rtuDrain_hearing env err rx rx'' cs s).trans (State.andThen_of_ok _ hf).symm
  | b :: bs, s, hf => by
    rw [List.cons_append, rtuDrain, rtuDrain, State.andThen_assoc]
    exact State.andThen_congr (rtuDrain_split env rx rx' rx'' cs err bs _)

/-- A configured RTU framer that does not transmit. -/
structure RtuReads (s : State) : Prop where
  configured : s.rtu.configured = true
  live : s.rtu.st ≠ .exception
  silent : s.rtu.st.transmitting = false
  ticks : s.rtu.t35 ≠ some 0

theorem RtuListening.reads {env : Inputs} {s : State} (h : RtuListening env s) : RtuReads s :=
  ⟨h.configured, h.live, h.silent, h.ticks⟩

section Rtu

variable {env : Inputs} {s : State}

theorem RtuReads.listening (h : RtuReads s) : RtuListening env (rtuPollTimers env s) :=
  .rtuPollTimers h.configured h.ticks h.live h.silent

theorem RtuReads.listening_read (h : RtuReads s) (rx : List Byte) (err : Bool) :
    RtuListening env (rtuRead env rx err s) := State.andThen_keeps h.listening (RtuListening.rtuDrain rx)

/-- A POLL of a framer that does not transmit is its timers and its drain (rule R211). -/
theorem RtuReads.rtuPoll (h : RtuReads s) (rx : List Byte) (err : Bool) :
    rtuPoll (env.hearing rx err) s =
      (rtuRead env rx err s).andThen fun t => t.answer (.ticks (rtuDeadline env t)) := by
  rw [Machine.rtuPoll, if_pos h.configured, if_neg h.live, rtuRead, State.andThen_assoc]
  refine State.andThen_congr fun hn => State.andThen_congr fun hn' => ?_
  change (rtuTransmitPhase (env.hearing rx err) (rtuDrain (env.hearing rx err) rx (rtuPollTimers env s))).andThen _ = _
  rw [rtuTransmitPhase_of_not (RtuListening.rtuDrain rx h.listening).silent]
  exact State.andThen_of_ok _ hn'

/-- A configured framer that does not transmit reads in order. -/
theorem pollReads_rtu (env : Inputs) : PollReads env .rtuPoll RtuReads (rtuRead env) (rtuDeadline env) where
  runs rx err r x hf h := by
    have hx : RtuReads (x.asking (env.hearing rx err)) := ⟨h.configured, h.live, h.silent, h.ticks⟩
    have hask : rtuRead env rx err (x.asking (env.hearing rx err)) = (rtuRead env rx err x).asking (env.hearing rx err) :=
      State.asking_andThen (rtuPollTimers_asking rfl) (rtuDrain_asking rx rfl)
    have hrun := hx.rtuPoll (env := env) rx err
    rw [hask] at hrun
    change Host.Outcome.next (State.command _ (Machine.rtuPoll (env.hearing rx err))) = _
    rw [State.command_of_ok (s := { x with inputs := env.hearing rx err, result := r }) _ hf]
    exact congrArg _ (hrun.trans (State.asking_answer ..))
  keeps bs _ h := (h.listening_read (env := env) bs false).reads
  split bs cs err x hf h := by
    have hread := RtuListening.rtuDrain (rx := bs) (e := false) bs (h.listening (env := env))
    rw [rtuRead, rtuRead, State.andThen_assoc]
    refine State.andThen_congr fun hn => (rtuDrain_split env _ bs cs cs err bs _ hn).trans
      (State.andThen_congr fun hn' => ?_)
    rw [rtuRead, hread.rtuPollTimers_eq, State.andThen_of_ok _ hn']

/-- Before SETUP a POLL faults, whatever it reads (rule R206). -/
theorem pollReads_rtu_unconfigured (env : Inputs) : PollReads env .rtuPoll (fun s => s.rtu.configured = false)
    (fun _ _ s => s.raise .notConfigured) fun _ => 0 where
  runs rx err r x hf h := by
    change Host.Outcome.next (State.command _ (Machine.rtuPoll (env.hearing rx err))) = _
    rw [State.command_of_ok (s := { x with inputs := env.hearing rx err, result := r }) _ hf, Machine.rtuPoll]
    rw [if_neg (by exact (Bool.not_eq_true _).mpr h)]
    rfl
  keeps _ _ h := h
  split _ _ _ _ _ _ := rfl

/-- In `exception` a POLL reads nothing (rule R241). -/
theorem pollReads_rtu_exception (env : Inputs) :
    PollReads env .rtuPoll (fun s => s.rtu.configured = true ∧ s.rtu.st = .exception) (fun _ _ s => s) fun _ => 0 where
  runs rx err r x hf h := by
    obtain ⟨hc, hst⟩ := h
    change Host.Outcome.next (State.command _ (Machine.rtuPoll (env.hearing rx err))) = _
    rw [State.command_of_ok (s := { x with inputs := env.hearing rx err, result := r }) _ hf, Machine.rtuPoll, if_pos hc,
      if_pos hst]
    exact congrArg _ (State.polled_of_ok hf _ 0).symm
  keeps _ _ h := h
  split _ _ _ _ _ _ := (State.andThen_id _).symm

/-- An RTU framer that does not transmit reads in order. -/
theorem rtuPoll_inOrder (hst : s.rtu.st.transmitting = false) (ht : s.rtu.t35 ≠ some 0) (bs cs : List Byte) (err : Bool) :
    s.PollsInOrder .rtuPoll bs cs err := by
  cases hf : s.fault with
  | some r => exact stopsAtFaults_rtuPoll.inOrder hf bs cs err
  | none =>
    cases hc : s.rtu.configured with
    | false => exact (pollReads_rtu_unconfigured _).inOrder stopsAtFaults_rtuPoll hf hc bs cs err
    | true =>
      by_cases hx : s.rtu.st = .exception
      · exact (pollReads_rtu_exception _).inOrder stopsAtFaults_rtuPoll hf ⟨hc, hx⟩ bs cs err
      · exact (pollReads_rtu _).inOrder stopsAtFaults_rtuPoll hf ⟨hc, hx, hst, ht⟩ bs cs err

end Rtu

/-! ### ASCII -/

/-- The timers and the drain of an ASCII POLL. -/
def ascRead (env : Inputs) (rx : List Byte) (err : Bool) (s : State) : State :=
  (ascPollTimers env s).andThen (ascDrain (env.hearing rx err) rx)

/-- A drain looks at its characters, not at the stream. -/
theorem ascDrain_hearing (env : Inputs) (err : Bool) (rx rx' : List Byte) : ∀ (cs : List Byte) (s : State),
    ascDrain (env.hearing rx err) cs s = ascDrain (env.hearing rx' err) cs s
  | [], _ => rfl
  | c :: cs, s => congrArg (ascOnChar env c s).andThen (funext fun s => ascDrain_hearing env err rx rx' cs s)

/-- Reading `bs ++ cs` is reading `bs`, then `cs`. -/
theorem ascDrain_split (env : Inputs) (rx rx' rx'' cs : List Byte) (err : Bool) : ∀ (bs : List Byte) (s : State),
    s.fault = none → ascDrain (env.hearing rx err) (bs ++ cs) s =
      (ascDrain (env.hearing rx' false) bs s).andThen (ascDrain (env.hearing rx'' err) cs)
  | [], s, hf => (ascDrain_hearing env err rx rx'' cs s).trans (State.andThen_of_ok _ hf).symm
  | b :: bs, s, hf => by
    rw [List.cons_append, ascDrain, ascDrain, State.andThen_assoc]
    exact State.andThen_congr (ascDrain_split env rx rx' rx'' cs err bs _)

/-- An ASCII framer in a state in which it reads and does not transmit. -/
structure AscReads (s : State) : Prop where
  live : s.asc.st ≠ .exception
  silent : s.asc.st.transmitting = false
  ticks : s.asc.timeoutTicks ≠ 0

theorem AscListening.reads {env : Inputs} {s : State} (h : AscListening env s) : AscReads s :=
  ⟨h.live, h.silent, h.ticks⟩

section Ascii

variable {env : Inputs} {s : State}

theorem AscReads.listening (h : AscReads s) : AscListening env (ascPollTimers env s) :=
  .ascPollTimers h.ticks h.live h.silent

theorem AscReads.listening_read (h : AscReads s) (rx : List Byte) (err : Bool) :
    AscListening env (ascRead env rx err s) := State.andThen_keeps h.listening (AscListening.ascDrain rx)

/-- A POLL of a framer that does not transmit is its timers and its drain (rule R305). -/
theorem AscReads.ascPoll (h : AscReads s) (rx : List Byte) (err : Bool) :
    ascPoll (env.hearing rx err) s =
      (ascRead env rx err s).andThen fun t => t.answer (.ticks (ascDeadline env t)) := by
  rw [Machine.ascPoll, if_neg h.live, ascRead, State.andThen_assoc]
  refine State.andThen_congr fun hn => State.andThen_congr fun hn' => ?_
  change (ascTransmitPhase (env.hearing rx err) (ascDrain (env.hearing rx err) rx (ascPollTimers env s))).andThen _ = _
  rw [ascTransmitPhase, (AscListening.ascDrain rx h.listening).silent, if_neg Bool.false_ne_true]
  exact State.andThen_of_ok _ hn'

/-- A framer that does not transmit reads in order. -/
theorem pollReads_asc (env : Inputs) : PollReads env .ascPoll AscReads (ascRead env) (ascDeadline env) where
  runs rx err r x hf h := by
    have hx : AscReads (x.asking (env.hearing rx err)) := ⟨h.live, h.silent, h.ticks⟩
    have hask : ascRead env rx err (x.asking (env.hearing rx err)) = (ascRead env rx err x).asking (env.hearing rx err) :=
      State.asking_andThen (ascPollTimers_asking rfl) (ascDrain_asking rx rfl)
    have hrun := hx.ascPoll (env := env) rx err
    rw [hask] at hrun
    change Host.Outcome.next (State.command _ (Machine.ascPoll (env.hearing rx err))) = _
    rw [State.command_of_ok (s := { x with inputs := env.hearing rx err, result := r }) _ hf]
    exact congrArg _ (hrun.trans (State.asking_answer ..))
  keeps bs _ h := (h.listening_read (env := env) bs false).reads
  split bs cs err x hf h := by
    have hread := AscListening.ascDrain (rx := bs) (e := false) bs (h.listening (env := env))
    rw [ascRead, ascRead, State.andThen_assoc]
    refine State.andThen_congr fun hn => (ascDrain_split env _ bs cs cs err bs _ hn).trans
      (State.andThen_congr fun hn' => ?_)
    rw [ascRead, hread.ascPollTimers_eq, State.andThen_of_ok _ hn']

/-- In `exception` a POLL reads nothing (rule R327). -/
theorem pollReads_asc_exception (env : Inputs) :
    PollReads env .ascPoll (fun s => s.asc.st = .exception) (fun _ _ s => s) fun _ => 0 where
  runs rx err r x hf hst := by
    change Host.Outcome.next (State.command _ (Machine.ascPoll (env.hearing rx err))) = _
    rw [State.command_of_ok (s := { x with inputs := env.hearing rx err, result := r }) _ hf, Machine.ascPoll, if_pos hst]
    exact congrArg _ (State.polled_of_ok hf _ 0).symm
  keeps _ _ h := h
  split _ _ _ _ _ _ := (State.andThen_id _).symm

/-- An ASCII framer that does not transmit reads in order. -/
theorem ascPoll_inOrder (hst : s.asc.st.transmitting = false) (ht : s.asc.timeoutTicks ≠ 0) (bs cs : List Byte)
    (err : Bool) : s.PollsInOrder .ascPoll bs cs err := by
  cases hf : s.fault with
  | some r => exact stopsAtFaults_ascPoll.inOrder hf bs cs err
  | none =>
    by_cases hx : s.asc.st = .exception
    · exact (pollReads_asc_exception _).inOrder stopsAtFaults_ascPoll hf hx bs cs err
    · exact (pollReads_asc _).inOrder stopsAtFaults_ascPoll hf ⟨hx, hst, ht⟩ bs cs err

end Ascii

/-- Settles O46: the timers have nothing more to do at the same tick, and a drain takes one byte after the other. -/
theorem pollReadsInOrder : Obligations.PollReadsInOrder := fun _ bs cs err =>
  ⟨fun hst ht => rtuPoll_inOrder hst ht bs cs err, fun hst ht => ascPoll_inOrder hst ht bs cs err⟩

end Sys2Proof.Machine
end

section
/-! PROOFS. O32, O34: the RTU framer's SEND, and its POLL while it transmits (rules R211, R218, R226, R230 to R236). -/

namespace Sys2Proof.Machine

section Transmits

variable {env : Inputs} {s : State}

/-- No timer acts on a framer that transmits (rule R212). -/
theorem rtuPollTimers_of_transmitting (h : s.rtu.st.transmitting = true) : rtuPollTimers env s = s :=
  rtuPollTimers_untimed (RtuSt.timed_of_transmitting h)

/-- A framer that transmits drops a byte, which restamps it (rules R214, R218). -/
theorem rtuOnByte_of_transmitting (b : Byte) (h : s.rtu.st.transmitting = true) :
    rtuOnByte env b s = { s with rtu := { s.rtu with last := nowTick s.cfg env } } := by
  revert h
  unfold rtuOnByte
  dsimp only
  cases s.rtu.st <;> simp [RtuSt.transmitting]

/-- A read error changes nothing in a framer that transmits (rule R240). -/
theorem rtuReadError_of_transmitting (h : s.rtu.st.transmitting = true) :
    rtuReadError env s = s.emitCause .rtu .rxTransport := by
  have hst : (s.emitCause .rtu .rxTransport).rtu.st = s.rtu.st := rfl
  revert h
  unfold rtuReadError
  dsimp only
  rw [hst]
  cases s.rtu.st <;> simp [RtuSt.transmitting]

/-- What a framer that transmits does with all that it reads. -/
theorem rtuDrain_of_transmitting : ∀ (bs : List Byte) {s : State}, s.fault = none → s.rtu.st.transmitting = true →
    rtuDrain env bs s = { s with
      rtu := { s.rtu with last := if bs = [] then s.rtu.last else nowTick s.cfg env }
      events := if env.rxError then s.events ++ [.cause .rtu .rxTransport] else s.events }
  | [], s, hf, h => by
    rw [rtuDrain, rtuReadError_of_transmitting h]
    cases env.rxError <;> rfl
  | b :: bs, s, hf, h => by
    rw [rtuDrain, rtuOnByte_of_transmitting b h, State.andThen_of_ok _ (by exact hf),
      rtuDrain_of_transmitting bs (by exact hf) (by exact h)]
    simp

/-- At every byte of the ADU the framer transmits (rule R231). -/
theorem transmitting_rtuSentAt (c : Config) {len m : Nat} (hm : m ≤ len + 3) :
    (rtuSentAt c len m).1.transmitting = true := by
  obtain hm | rfl : m < len + 3 ∨ m = len + 3 := by omega
  · obtain ⟨-, e⟩ | ⟨k, -, -, e⟩ | ⟨-, e⟩ | ⟨-, e⟩ := rtuSentAt_cases c hm <;> rw [e] <;> rfl
  · rw [rtuSentAt_end]; rfl

/-- A transmission goes on, has failed, or waits for its T3.5 from now on (rules R233, R234, R236). -/
theorem State.rtuOffered_st {a : Byte} {p : List Byte} {m : Nat} (hm : m ≤ p.length + 3) :
    let t := s.rtuOffered m a p
    t.rtu.t35 = s.rtu.t35 ∧
      (t.rtu.st.transmitting = true ∨ t.rtu.st = .idle ∨ (t.rtu.st = .txWait ∧ t.rtu.last = s.now)) := by
  have hsent (k : Nat) (hk : k ≤ ((rtuAduOf a p).drop m).length) :
      (rtuSentAt s.cfg p.length (m + k)).1.transmitting = true := by
    rw [List.length_drop, length_rtuAduOf] at hk
    exact transmitting_rtuSentAt _ (by omega)
  have hacc := hsent _ (accepted_le s.inputs _)
  simp only [State.rtuOffered]
  split_ifs
  · exact ⟨rfl, .inr (.inl rfl)⟩
  · exact ⟨rfl, .inl hacc⟩
  · exact ⟨rfl, .inr (.inr ⟨rfl, rfl⟩)⟩
  · exact ⟨rfl, .inl hacc⟩

/-- While it transmits, a POLL returns 1 (rule R226). -/
theorem rtuDeadline_of_transmitting (h : s.rtu.st.transmitting = true) : rtuDeadline env s = 1 := by
  revert h
  unfold rtuDeadline
  cases s.rtu.st <;> simp [RtuSt.transmitting]

theorem rtuDeadline_idle (h : s.rtu.st = .idle) : rtuDeadline env s = 0 := by simp [rtuDeadline, h]

/-- At its start the T3.5 guard is whole (rule R226). -/
theorem rtuDeadline_txWait (h : s.rtu.st = .txWait) (hl : s.rtu.last = nowTick s.cfg env) :
    rtuDeadline env s = s.rtu.t35.getD 0 := by
  simp [rtuDeadline, h, ticksUntil, rtuElapsed_of_stamped hl]

/-- What a POLL that transmits returns: 1, 0 after a write error, the guard after the drain. -/
theorem rtuDeadline_offered
    (h : s.rtu.st.transmitting = true ∨ s.rtu.st = .idle ∨ (s.rtu.st = .txWait ∧ s.rtu.last = nowTick s.cfg env)) :
    rtuDeadline env s = if s.rtu.st = .idle then 0 else if s.rtu.st = .txWait then s.rtu.t35.getD 0 else 1 := by
  obtain h | h | ⟨h, hl⟩ := h
  · rw [rtuDeadline_of_transmitting h, if_neg, if_neg] <;> rintro e <;> rw [e] at h <;> exact absurd h (by decide)
  · rw [rtuDeadline_idle h, if_pos h]
  · rw [rtuDeadline_txWait h hl, if_neg (by simp [h]), if_pos h]

/-- A POLL by its phases (rule R211): the timers, the drain, the transmit progress, the deadline. -/
theorem exec_rtuPoll_of_phases {t u v : State} (hf : s.fault = none) (hc : s.rtu.configured = true)
    (hx : s.rtu.st ≠ .exception) (ht : rtuPollTimers s.inputs (s.answer .none) = t) (htf : t.fault = none)
    (hu : rtuDrain s.inputs s.inputs.rx t = u) (huf : u.fault = none) (hv : rtuTransmitPhase s.inputs u = v)
    (hvf : v.fault = none) : exec .rtuPoll s = .next (v.answer (.ticks (rtuDeadline s.inputs v))) := by
  change Host.Outcome.next (s.command _) = _
  rw [State.command_of_ok _ hf]
  change Host.Outcome.next (rtuPoll s.inputs (s.answer .none)) = _
  rw [rtuPoll, if_pos (by exact hc), if_neg (by exact hx), ht, State.andThen_of_ok _ htf, hu, State.andThen_of_ok _ huf,
    hv, State.andThen_of_ok _ hvf]

/-- A POLL in `exception` (rules R211, R241). -/
theorem exec_rtuPoll_exception (hf : s.fault = none) (hc : s.rtu.configured = true) (hx : s.rtu.st = .exception) :
    exec .rtuPoll s = .next (s.answer (.ticks 0)) := by
  change Host.Outcome.next (s.command _) = _
  rw [State.command_of_ok _ hf]
  change Host.Outcome.next (rtuPoll s.inputs (s.answer .none)) = _
  rw [rtuPoll, if_pos (by exact hc), if_pos (by exact hx)]
  rfl

end Transmits

section Send

variable {s : State} {p : List Byte}

/-- The PDU in the framer's buffer is there to be sent. -/
theorem State.RtuHolds.of_buffer (hf : s.fault = none) (hpos : 1 ≤ s.rtu.bufferLen)
    (hroom : s.rtu.bufferLen ≤ s.cfg.bufferMax) (hp : s.rtu.buf.readRange 0 s.rtu.bufferLen = some p)
    (hcrc : s.rtu.txCrc = crc16 (s.rtu.frameAddress :: p)) : s.RtuHolds s.rtu.frameAddress p := by
  have hlen := Memory.length_of_readRange _ _ _ _ hp
  exact ⟨hf, rfl, hlen.symm, by rw [hlen]; exact hp, hcrc, by omega, by omega⟩

/-- Where the transmission stood and what was returned before do not matter to what is sent. -/
theorem State.rtuOffered_from (s : State) (m : Nat) (a : Byte) (p : List Byte) (st : RtuSt) (i : Nat) (r : Result) :
    State.rtuOffered m a p { s with rtu := { s.rtu with st := st, txIndex := i }, result := r } =
      (s.rtuOffered m a p).answer r := by
  simp only [State.rtuOffered]
  split_ifs <;> rfl

/-- SEND of a framer whose PDU is whole (rule R230). -/
theorem framerTransmit_rtu (env : Inputs) (hp : s.rtu.buf.readRange 0 s.rtu.bufferLen = some p) :
    framerTransmit env .rtu s = rtuTxProgress env (rtuStartSend p s) := by
  have hread : (s.buf .rtu).readRange 0 (s.bufferLen .rtu) = some p := hp
  rw [framerTransmit, hread]

theorem State.canSend_rtu (s : State) : s.canSend .rtu = true ↔ s.rtu.st = .queue ∧ 1 ≤ s.rtu.bufferLen := by
  simp [State.canSend, State.inQueue, State.bufferLen, Nat.one_le_iff_ne_zero]

/-- SEND of a configured framer (rule R230). -/
theorem exec_rtuSend (hf : s.fault = none) (hc : s.rtu.configured = true) : exec .rtuSend s =
    .next (if s.canSend .rtu then (framerTransmit s.inputs .rtu (s.answer .none)).andThen (State.answer (.bool true))
      else s.answer (.bool false)) := by
  change Host.Outcome.next (s.command _) = _
  rw [State.command_of_ok _ hf, if_pos (by exact hc)]
  rfl

/-- Settles O32: SEND is the transmit progress from the ADU's first byte. -/
theorem rtuSendTransmitsTheAdu : Obligations.RtuSendTransmitsTheAdu := by
  intro s p hf hc hst hpos hroom hp
  have hholds : (rtuStartSend p (s.answer .none)).RtuHolds s.rtu.frameAddress p :=
    .of_buffer (s := rtuStartSend p (s.answer .none)) hf hpos hroom hp rfl
  have hprogress := hholds.rtuTxProgress_sent (Nat.zero_le _)
  rw [State.rtuSent_zero _ rfl rfl] at hprogress
  have htransmit := (framerTransmit_rtu (s := s.answer .none) s.inputs hp).trans hprogress
  have hwith : State.rtuOffered 0 s.rtu.frameAddress p (rtuStartSend p (s.answer .none)) = _ :=
    State.rtuOffered_from { s with rtu := { s.rtu with
    txCrc := crc16 (s.rtu.frameAddress :: p), txen := true } } 0 s.rtu.frameAddress p .txAddr 0 .none
  rw [exec_rtuSend hf hc, if_pos ((State.canSend_rtu s).2 ⟨hst, hpos⟩), htransmit,
    State.andThen_of_ok _ ((State.rtuOffered_fault ..).trans hholds.fault)]
  rw [hwith]
  rfl

/-- Settles O34: the timers let a transmission be, the drain drops what it reads, and the progress goes on at byte `m`. -/
theorem rtuPollResumesTheAdu : Obligations.RtuPollResumesTheAdu := by
  intro s p m hf hc hpos hroom hp hm hst hidx hcrc t
  have hlen := Memory.length_of_readRange _ _ _ _ hp
  have htx : s.rtu.st.transmitting = true := by rw [hst]; exact transmitting_rtuSentAt _ hm
  have hx : s.rtu.st ≠ .exception := fun e => by rw [e] at htx; exact absurd htx (by decide)
  have hdrain : rtuDrain s.inputs s.inputs.rx (s.answer .none) = s.rtuHeard.answer .none :=
    rtuDrain_of_transmitting _ (s := s.answer .none) hf htx
  have hholds : (s.rtuHeard.answer .none).RtuHolds s.rtu.frameAddress p :=
    .of_buffer (s := s.rtuHeard.answer .none) hf hpos hroom hp hcrc
  have hsent : (s.rtuHeard.answer .none).rtuSent p.length m [] = s.rtuHeard.answer .none := by
    simp [State.rtuSent, State.answer, State.rtuHeard, ← hst, ← hidx]
  have hprogress := hholds.rtuTxProgress_sent (m := m) (by rw [length_rtuAduOf]; exact hm)
  rw [hsent] at hprogress
  have hphase : rtuTransmitPhase s.inputs (s.rtuHeard.answer .none) = t.answer .none := by
    rw [rtuTransmitPhase, if_pos (by exact htx)]
    exact hprogress.trans (State.rtuOffered_from s.rtuHeard m s.rtu.frameAddress p s.rtu.st s.rtu.txIndex .none)
  obtain ⟨ht35, hts⟩ := s.rtuHeard.rtuOffered_st (a := s.rtu.frameAddress) hm
  rw [exec_rtuPoll_of_phases hf hc hx (rtuPollTimers_of_transmitting (by exact htx)) (by exact hf) hdrain
      (by exact hf) hphase ((State.rtuOffered_fault ..).trans hf),
    rtuDeadline_offered (by rw [show (t.answer .none).cfg = s.cfg from State.rtuOffered_cfg ..]; exact hts)]
  exact congrArg (fun d => Host.Outcome.next (t.answer (.ticks (if t.rtu.st = .idle then 0 else
    if t.rtu.st = .txWait then d else 1)))) (congrArg (Option.getD · 0) ht35)

end Send

end Sys2Proof.Machine
end

section
/-! PROOFS. O36: the deadline that an RTU POLL returns (rule R226). -/

namespace Sys2Proof.Machine

/-! ### The deadline of an RTU POLL -/

/-- The loop ends in a state that no timer ends. -/
theorem timed_rtuTxLoop (env : Inputs) : ∀ (fuel : Nat) (left : Option Nat) (s : State), s.rtu.st.timed = false →
    (rtuTxLoop env fuel left s).rtu.st.timed = false
  | 0, _, _, h => h
  | fuel + 1, left, s, h => by
    unfold rtuTxLoop
    split
    next ho =>
      split
      · exact h
      · split
        · rfl
        · exact h
        · exact timed_rtuTxLoop env fuel _ _ (RtuSt.timed_of_transmitting (rtuTxAdvance_transmitting _ ho))
    next => exact h

/-- A window that ends a state is open after the transmit progress: only the T3.5 guard can have started, at this tick. -/
theorem settled_rtuTxProgress {env : Inputs} {s : State} (h : s.rtu.st.timed = false) :
    (rtuTxProgress env s).rtu.st.timed = false ∨
      (rtuTxProgress env s).rtu.last = nowTick (rtuTxProgress env s).cfg env := by
  refine State.andThen_keeps (P := fun t => t.rtu.st.timed = false ∨ t.rtu.last = nowTick t.cfg env)
    (.inl (timed_rtuTxLoop env _ _ s h)) fun h => ?_
  unfold rtuDrainCheck
  split
  · split
    · exact .inr rfl
    · exact h
  · exact h

theorem RtuSt.transmitting_of_mem {st : RtuSt} (h : st ∈ [RtuSt.txAddr, .txPdu, .txCrc, .txDrain]) :
    st.transmitting = true := by
  revert h
  cases st <;> simp [RtuSt.transmitting]

theorem RtuSt.timed_of_mem {st : RtuSt} (h : st ∈ [RtuSt.dump, .collision, .txWait]) : st.timed = true := by
  revert h
  cases st <;> simp [RtuSt.timed]

section Deadline

variable {env : Inputs} {t : State}

theorem rtuDeadline_resting (h : t.rtu.st ∈ [RtuSt.exception, .idle, .frameReady, .queue]) : rtuDeadline env t = 0 := by
  revert h
  unfold rtuDeadline
  cases t.rtu.st <;> simp

theorem rtuDeadline_waiting (h : t.rtu.st ∈ [RtuSt.dump, .collision, .txWait]) :
    rtuDeadline env t = t.rtu.t35.getD 0 - rtuElapsed env t := by
  revert h
  unfold rtuDeadline ticksUntil
  cases t.rtu.st <;> simp

theorem rtuDeadline_receive (h : t.rtu.st = .receive) : rtuDeadline env t =
    if rtuElapsed env t < t.rtu.t15.getD 0 then t.rtu.t15.getD 0 - rtuElapsed env t
    else t.rtu.t35.getD 0 - rtuElapsed env t := by
  simp [rtuDeadline, h, ticksUntil]

/-- A framer at the end of a POLL: its window, if it has one, is open. -/
def RtuSettled (env : Inputs) (t : State) : Prop := t.rtu.st.timed = true → reached t.rtu.t35 (rtuElapsed env t) = false

/-- The deadline of a settled framer fits in `W` bits (rules R170, R226). -/
theorem rtuDeadline_lt {t15 t35 : Nat} (h15 : t.rtu.t15 = some t15) (h35 : t.rtu.t35 = some t35)
    (h15lt : t15 < tickModulus t.cfg) (h35lt : t35 < tickModulus t.cfg) (h1 : 1 < tickModulus t.cfg) :
    rtuDeadline env t < tickModulus t.cfg := by
  unfold rtuDeadline ticksUntil
  simp only [h15, h35, Option.getD_some]
  split
  · split <;> omega
  all_goals omega

end Deadline

/-- Under the invariant no threshold is 0 (rule R38). -/
theorem Underway.rtu_ticks {env : Inputs} {s : State} (h : Underway env .rtu s) : s.rtu.t35 ≠ some 0 := by
  obtain ⟨t15, t35, -, h35, -, -, hpos, -⟩ := h.inv.rtu.timed h.configured h.rtuLive
  rw [h35]; simp; omega

/-- An RTU POLL under the invariant leaves the framer settled. -/
theorem Underway.rtuSettled {env : Inputs} {s : State} (h : Underway env .rtu s) :
    RtuSettled env (rtuTransmitPhase env (Machine.rtuDrain env env.rx (Machine.rtuPollTimers env s))) := by
  cases htx : s.rtu.st.transmitting with
  | false =>
    have hlisten : RtuListening env (Machine.rtuDrain env env.rx (Machine.rtuPollTimers env s)) :=
      RtuListening.rtuDrain (rx := env.rx) (e := env.rxError) env.rx
        (RtuListening.rtuPollTimers h.configured h.rtu_ticks h.rtuLive htx)
    rw [rtuTransmitPhase_of_not hlisten.silent]
    exact hlisten.settled
  | true =>
    have hprogress := (h.rtuDrain env.rx).rtuTxProgress
    rw [rtuPollTimers_of_transmitting htx]
    have htx' : (Machine.rtuDrain env env.rx s).rtu.st.transmitting = true := by
      rw [rtuDrain_of_transmitting _ h.fault htx]; exact htx
    rw [rtuTransmitPhase, if_pos htx']
    intro htimed
    obtain hnot | hl := settled_rtuTxProgress (env := env) (RtuSt.timed_of_transmitting htx')
    · exact absurd (htimed.symm.trans hnot) (by decide)
    · rw [rtuElapsed_of_stamped hl]; exact reached_zero hprogress.rtu_ticks

theorem Underway.rtuTransmitPhase {env : Inputs} {s : State} (h : Underway env .rtu s) :
    Underway env .rtu (rtuTransmitPhase env s) := iteInduction (fun _ => h.rtuTxProgress) fun _ => h

theorem touches_rtuTransmitPhase (env : Inputs) (s : State) : Touches .rtu s (rtuTransmitPhase env s) :=
  .ite (fun _ => touches_rtuTxProgress ..) fun _ => .refl ..

/-- Under the invariant a POLL of a configured framer not in `exception` runs to its end, and leaves it settled. -/
theorem State.Inv.exists_rtuPoll {s : State} (h : s.Inv) (hf : s.fault = none) (hc : s.rtu.configured = true)
    (hx : s.rtu.st ≠ .exception) :
    ∃ t, exec .rtuPoll s = .next (t.answer (.ticks (rtuDeadline s.inputs t))) ∧ Underway s.inputs .rtu t ∧
      RtuSettled s.inputs t ∧ t.cfg = s.cfg := by
  have hunder : Underway s.inputs .rtu (s.answer .none) :=
    ⟨h.answer _, hf, hc, by simpa [State.exceptionOut, State.answer] using hx, rfl⟩
  have htimers := hunder.rtuPollTimers
  have hdrain := htimers.rtuDrain s.inputs.rx
  have hphase := hdrain.rtuTransmitPhase
  have htouch : Touches .rtu (s.answer .none) (Machine.rtuTransmitPhase s.inputs
      (rtuDrain s.inputs s.inputs.rx (rtuPollTimers s.inputs (s.answer .none)))) :=
    (touches_rtuPollTimers ..).trans ((touches_rtuDrain ..).trans (touches_rtuTransmitPhase ..))
  exact ⟨_, exec_rtuPoll_of_phases hf hc hx rfl htimers.fault rfl hdrain.fault rfl hphase.fault, hphase,
    hunder.rtuSettled, htouch.cfg⟩

/-- Settles O36: each window that a timer of rule R212 ends is open when the deadline is computed. -/
theorem rtuPollAnswersItsDeadline : Obligations.RtuPollAnswersItsDeadline := by
  intro s h hf hc
  by_cases hx : s.rtu.st = .exception
  · refine ⟨s.answer (.ticks 0), 0, exec_rtuPoll_exception hf hc hx, hf, rfl, Nat.two_pow_pos _, fun _ => rfl, ?_⟩
    simp [State.answer, hx]
  obtain ⟨t, hexec, ht, hsettled, hcfg⟩ := h.exists_rtuPoll hf hc hx
  obtain ⟨t15, t35, h15, h35, hpos15, hlt15, hpos35, hlt35⟩ := ht.inv.rtu.timed ht.configured ht.rtuLive
  have helapsed : tickDiff t.cfg s.now t.rtu.last = rtuElapsed s.inputs t := by rw [rtuElapsed, hcfg]; rfl
  have hopen (hst : t.rtu.st.timed = true) : rtuElapsed s.inputs t < t35 := by
    simpa [h35, reached] using hsettled hst
  refine ⟨_, _, hexec, ht.fault, rfl, rtuDeadline_lt h15 h35 hlt15 hlt35 (by omega), rtuDeadline_resting,
    fun hst => rtuDeadline_of_transmitting (RtuSt.transmitting_of_mem hst), fun hst => ?_, fun hst => ?_⟩
  · have := hopen (RtuSt.timed_of_mem hst)
    rw [rtuDeadline_waiting (t := t) hst]
    simp only [State.answer, helapsed, h35, Option.getD_some, Option.some.injEq]
    omega
  · have := hopen (by rw [show t.rtu.st = .receive from hst]; rfl)
    rw [rtuDeadline_receive (t := t) hst]
    simp only [h15, h35, Option.getD_some]
    refine ⟨?_, t15, t35, h15, h35, ?_⟩
    · split <;> omega
    · simp only [State.answer, helapsed]
      split <;> omega

end Sys2Proof.Machine
end

section
/-! PROOFS. O58: the states that no operation leaves or enters by itself: `exception` of both framers, and the engine's
`processing_error`. -/

namespace Sys2Proof.Machine

/-- `t` is in the unrecoverable states that `s` is in. The master engine may also have entered `processing_error`. -/
structure Stays (s t : State) : Prop where
  rtu : t.rtu.st = .exception ↔ s.rtu.st = .exception
  asc : t.asc.st = .exception ↔ s.asc.st = .exception
  mst : s.mst.st = .processingError → t.mst.st = .processingError

theorem Stays.refl (s : State) : Stays s s := ⟨Iff.rfl, Iff.rfl, id⟩

theorem Stays.trans {a b c : State} (h : Stays a b) (k : Stays b c) : Stays a c :=
  ⟨k.rtu.trans h.rtu, k.asc.trans h.asc, k.mst ∘ h.mst⟩

/-- The same, the later step first: it says what stood between. -/
theorem Stays.after {a b c : State} (k : Stays b c) (h : Stays a b) : Stays a c := h.trans k

theorem Stays.andThen {a b : State} {f : State → State} (h : Stays a b) (k : Stays b (f b)) : Stays a (b.andThen f) := by
  obtain ⟨-, -, e⟩ | ⟨-, e⟩ := State.andThen_cases b f <;> rw [e]
  · exact h
  · exact h.trans k

section Ops

variable {s t : State}

/-- What writes no state register. -/
theorem Stays.of_eq (hr : t.rtu.st = s.rtu.st) (ha : t.asc.st = s.asc.st) (hm : t.mst.st = s.mst.st) : Stays s t :=
  ⟨by rw [hr], by rw [ha], fun e => hm.trans e⟩

/-- An RTU framer that leaves its state for another, neither of them `exception`. -/
theorem Stays.rtu_moves {r : RtuFramer} (hs : s.rtu.st ≠ .exception) (hr : r.st ≠ .exception) :
    Stays s { s with rtu := r } := ⟨iff_of_false hr hs, Iff.rfl, id⟩

theorem Stays.asc_moves {a : AscFramer} (hs : s.asc.st ≠ .exception) (ha : a.st ≠ .exception) :
    Stays s { s with asc := a } := ⟨Iff.rfl, iff_of_false ha hs, id⟩

/-- A master engine that was not in `processing_error`. -/
theorem Stays.mst_moves (m : Master) (hs : s.mst.st ≠ .processingError) : Stays s { s with mst := m } :=
  ⟨Iff.rfl, Iff.rfl, fun e => absurd e hs⟩

theorem stays_raise (r : Fault) (s : State) : Stays s (s.raise r) := .of_eq rfl rfl rfl

theorem stays_answer (r : Result) (s : State) : Stays s (s.answer r) := .of_eq rfl rfl rfl

theorem stays_emit (e : Event) (s : State) : Stays s (s.emit e) := .of_eq rfl rfl rfl

theorem stays_bufWrite (s : State) (u : FramerKind) (i : Nat) (v : Byte) : Stays s (s.bufWrite u i v) := by
  obtain ⟨-, e⟩ | ⟨-, e⟩ := bufWrite_cases s u i v <;> rw [e]
  · cases u <;> exact .of_eq rfl rfl rfl
  · exact stays_raise ..

/-! ### Transmission -/

theorem stays_rtuFinished (s : State) : Stays s (rtuFinished s) := by
  refine iteInduction (fun _ => iteInduction (fun h => ?_) fun _ => .refl s) fun _ => stays_raise ..
  exact .rtu_moves (fun e => by rw [e] at h; exact absurd h (by decide)) nofun

theorem stays_ascFinished (s : State) : Stays s (ascFinished s) := by
  refine iteInduction (fun h => ?_) fun _ => .refl s
  exact .asc_moves (fun e => by rw [e] at h; exact absurd h (by decide)) nofun

theorem stays_framerFinished (u : FramerKind) (s : State) : Stays s (framerFinished u s) := by
  cases u
  · exact stays_rtuFinished s
  · exact stays_ascFinished s

theorem stays_enterQueue {u : FramerKind} (h : s.canBeginSend u = true) : Stays s (s.enterQueue u) := by
  cases u
  · exact .rtu_moves (fun e => by simp [State.canBeginSend, e] at h) nofun
  · exact .asc_moves (fun e => by simp [State.canBeginSend, e] at h) nofun

theorem RtuSt.ne_of_offering {st : RtuSt} (h : st.offering = true) : st ≠ .exception := by
  rintro rfl; exact absurd h (by decide)

theorem AscSt.ne_of_offering {st : AscSt} (h : st.offering = true) : st ≠ .exception := by
  rintro rfl; exact absurd h (by decide)

theorem stays_rtuTxLoop (env : Inputs) : ∀ (fuel : Nat) (left : Option Nat) (s : State),
    Stays s (rtuTxLoop env fuel left s)
  | 0, _, s => .refl s
  | fuel + 1, left, s => by
    have hadvance (b : Byte) (ho : s.rtu.st.offering = true) : Stays s (rtuTxAccepted b s) :=
      ⟨iff_of_false (RtuSt.ne_of_transmitting (rtuTxAdvance_transmitting _ ho) rfl) (RtuSt.ne_of_offering ho), Iff.rfl, id⟩
    unfold rtuTxLoop
    split
    next ho =>
      split
      · exact stays_raise ..
      · split
        · exact (stays_emit ..).after (.rtu_moves (RtuSt.ne_of_offering ho) nofun)
        · exact .refl s
        · exact (hadvance _ ho).trans (stays_rtuTxLoop env fuel _ _)
    next => exact .refl s

theorem stays_ascTxLoop (env : Inputs) : ∀ (fuel : Nat) (left : Option Nat) (s : State),
    Stays s (ascTxLoop env fuel left s)
  | 0, _, s => .refl s
  | fuel + 1, left, s => by
    have hadvance (c : Byte) (ho : s.asc.st.offering = true) : Stays s (ascTxAccepted c s) :=
      ⟨Iff.rfl, iff_of_false (AscSt.ne_of_transmitting (ascTxAdvance_transmitting ho) rfl) (AscSt.ne_of_offering ho), id⟩
    unfold ascTxLoop
    split
    next ho =>
      split
      · exact stays_raise ..
      · split
        · exact (stays_emit ..).after (.asc_moves (AscSt.ne_of_offering ho) nofun)
        · exact .refl s
        · exact (hadvance _ ho).trans (stays_ascTxLoop env fuel _ _)
    next => exact .refl s

theorem stays_rtuTxProgress (env : Inputs) (s : State) : Stays s (rtuTxProgress env s) := by
  refine (stays_rtuTxLoop ..).andThen ?_
  unfold rtuDrainCheck
  split
  next hst =>
    split
    · exact .rtu_moves (by rw [hst]; nofun) nofun
    · exact .refl _
  next => exact .refl _

theorem stays_ascTxProgress (env : Inputs) (s : State) : Stays s (ascTxProgress env s) := by
  refine (stays_ascTxLoop ..).andThen ?_
  unfold ascDrainCheck
  split
  next hst =>
    split
    · exact .asc_moves (by rw [hst]; nofun) nofun
    · exact .refl _
  next => exact .refl _

/-- SEND, of a framer that can send (rules R230, R321). -/
theorem stays_framerTransmit (env : Inputs) {u : FramerKind} (h : s.inQueue u = true) :
    Stays s (framerTransmit env u s) := by
  unfold framerTransmit
  split
  · exact stays_raise ..
  · cases u
    · exact (stays_rtuTxProgress ..).after (.rtu_moves (fun e => by simp [State.inQueue, e] at h) nofun)
    · exact (stays_ascTxProgress ..).after (.asc_moves (fun e => by simp [State.inQueue, e] at h) nofun)

/-! ### The frame-ready step and the requests -/

/-- FINISHED, and then a state of the engine that it may take: it was not in `processing_error`. -/
theorem Stays.finished_setMstSt (u : FramerKind) (v : MstSt) (hs : s.mst.st ≠ .processingError) (ht : Stays s t) :
    Stays s ((framerFinished u t).andThen (State.setMstSt v)) := by
  have hfin := ht.trans (stays_framerFinished u t)
  obtain ⟨-, -, e⟩ | ⟨-, e⟩ := State.andThen_cases (framerFinished u t) (State.setMstSt v) <;> rw [e]
  · exact hfin
  · exact ⟨hfin.rtu, hfin.asc, fun e => absurd e hs⟩

theorem stays_processReply (u : FramerKind) (env : Inputs) (hs : s.mst.st ≠ .processingError) :
    Stays s (processReply u env s) := by
  unfold processReply
  split
  · exact stays_raise ..
  · split
    · exact .finished_setMstSt u _ hs (.of_eq rfl rfl rfl)
    · exact .finished_setMstSt u _ hs (stays_emit ..)

/-- In `processing_error` a frame is unsolicited (rules R451, R475). -/
theorem stays_frameReadyStep (u : FramerKind) (env : Inputs) (s : State) : Stays s (frameReadyStep u env s) := by
  unfold frameReadyStep
  split
  next => exact (stays_emit ..).trans (stays_framerFinished ..)
  next hw =>
    have hs : s.mst.st ≠ .processingError := fun e => hw (.inr (by rw [e]; nofun))
    split
    · exact (stays_framerFinished ..).after (.of_eq rfl rfl rfl)
    · exact (stays_processReply u env (by nofun)).after (.mst_moves _ hs)

theorem stays_notifyMaster (u : FramerKind) (env : Inputs) (s : State) : Stays s (notifyMaster u env s) :=
  iteInduction (fun _ => stays_frameReadyStep ..) fun _ => .refl s

/-- A frame is ready in an RTU framer that was not in `exception`. -/
theorem stays_rtuReady (env : Inputs) (hx : s.rtu.st ≠ .exception) :
    Stays s (notifyMaster .rtu env { s with rtu := { s.rtu with st := .frameReady } }) :=
  (stays_notifyMaster ..).after (.rtu_moves hx nofun)

theorem stays_sendRequest {u : FramerKind} (env : Inputs) (slave : Byte) (p : RequestPlan)
    (hm : s.mst.st = .idle) (h : s.canBeginSend u = true) : Stays s (sendRequest env u slave p s) := by
  have hload : Stays s (State.setContext slave p (State.loadPdu u slave p.pdu (s.enterQueue u))) := by
    refine Stays.after ?_ (stays_enterQueue h)
    cases u <;> exact .of_eq rfl rfl rfl
  have hsend := (stays_framerTransmit env (s := State.setContext slave p (State.loadPdu u slave p.pdu (s.enterQueue u)))
    (u := u) (by cases u <;> rfl)).after hload
  unfold sendRequest
  obtain ⟨-, -, e⟩ | ⟨-, e⟩ := State.andThen_cases (framerTransmit env u _) _ <;> rw [e]
  · exact hsend
  · exact ⟨hsend.rtu, hsend.asc, fun e => by simp [hm] at e⟩

/-- In `processing_error` a request is refused (rules R411, R475). -/
theorem stays_masterRequest (env : Inputs) (slave : Byte) (p : RequestPlan) (s : State) :
    Stays s (masterRequest env slave p s) := by
  unfold masterRequest
  split
  · exact stays_raise ..
  · split
    next => exact stays_answer ..
    next hm =>
      refine iteInduction (fun _ => stays_answer ..) fun _ => iteInduction (fun _ => stays_answer ..) fun _ =>
        iteInduction (fun _ => stays_raise ..) fun _ => iteInduction (fun _ => stays_answer ..) fun h => ?_
      exact stays_sendRequest env slave p (not_not.1 hm) (by simpa using h)

theorem stays_masterPoll (env : Inputs) (s : State) : Stays s (masterPoll env s) := by
  unfold masterPoll
  dsimp only
  split
  next hst => exact iteInduction (fun _ => ⟨Iff.rfl, Iff.rfl, fun e => by simp [hst] at e⟩) fun _ => stays_answer ..
  next hst => exact iteInduction (fun _ => ⟨Iff.rfl, Iff.rfl, fun e => by simp [hst] at e⟩) fun _ => stays_answer ..
  all_goals exact stays_answer ..

/-! ### POLL -/

theorem stays_rtuReject (c : Cause) (hx : s.rtu.st ≠ .exception) : Stays s (rtuReject c s) :=
  ⟨iff_of_false nofun hx, Iff.rfl, id⟩

theorem stays_rtuFrameEnd (env : Inputs) (hx : s.rtu.st ≠ .exception) : Stays s (rtuFrameEnd env s) :=
  iteInduction (fun _ => stays_rtuReject _ hx) fun _ => iteInduction (fun _ => stays_rtuReject _ hx) fun _ =>
    iteInduction (fun _ => (stays_notifyMaster ..).after ((stays_emit ..).after (.rtu_moves hx nofun))) fun _ =>
      stays_rtuReject _ hx

theorem stays_rtuPollTimers (env : Inputs) (s : State) : Stays s (rtuPollTimers env s) := by
  unfold rtuPollTimers
  split
  · split
    next hst => exact stays_rtuFrameEnd env (by rw [hst]; nofun)
    next hst => exact .rtu_moves (by rw [hst]; nofun) nofun
    next hst => exact stays_rtuReady env (by rw [hst]; nofun)
    next hst => exact .rtu_moves (by rw [hst]; nofun) nofun
    all_goals exact .refl s
  · exact .refl s

theorem stays_rtuDump (c : Cause) (hx : s.rtu.st ≠ .exception) : Stays s (rtuDump c s) :=
  (stays_emit ..).after (.rtu_moves hx nofun)

theorem stays_rtuReceiveByte (b : Byte) (gap : Nat) (hx : s.rtu.st ≠ .exception) : Stays s (rtuReceiveByte b gap s) :=
  iteInduction (fun _ => stays_rtuDump _ hx) fun _ =>
    iteInduction (fun _ => iteInduction (fun _ => stays_rtuDump _ hx) fun _ =>
      (stays_bufWrite ..).andThen (.of_eq rfl rfl rfl)) fun _ =>
        iteInduction (fun _ => .of_eq rfl rfl rfl) fun _ => .of_eq rfl rfl rfl

theorem stays_rtuOnByte (env : Inputs) (b : Byte) (s : State) : Stays s (rtuOnByte env b s) := by
  refine Stays.trans (b := { s with rtu := { s.rtu with last := nowTick s.cfg env } }) (.of_eq rfl rfl rfl) ?_
  unfold rtuOnByte
  dsimp only
  split
  next hst => exact .rtu_moves (by rw [hst]; nofun) nofun
  next hst => exact stays_rtuReceiveByte _ _ (by rw [hst]; nofun)
  next hst => exact (stays_emit ..).after (.rtu_moves (by rw [hst]; nofun) nofun)
  all_goals exact .refl _

theorem stays_rtuReadError (env : Inputs) (s : State) : Stays s (rtuReadError env s) := by
  refine (stays_emit (.cause .rtu .rxTransport) s).trans ?_
  unfold rtuReadError
  dsimp only
  split
  iterate 3 next hst => exact .rtu_moves (fun e => nomatch hst.symm.trans e) nofun
  all_goals exact .refl _

theorem stays_rtuDrain (env : Inputs) : ∀ (bs : List Byte) (s : State), Stays s (rtuDrain env bs s)
  | [], s => iteInduction (fun _ => stays_rtuReadError env s) fun _ => .refl s
  | b :: bs, s => (stays_rtuOnByte env b s).andThen (stays_rtuDrain env bs _)

theorem stays_rtuPoll (env : Inputs) (s : State) : Stays s (rtuPoll env s) :=
  iteInduction (fun _ => iteInduction (fun _ => stays_answer ..) fun _ =>
    (stays_rtuPollTimers ..).andThen <| (stays_rtuDrain ..).andThen <|
      Stays.andThen (iteInduction (fun _ => stays_rtuTxProgress ..) fun _ => .refl _) (stays_answer ..)) fun _ =>
        stays_raise ..

theorem stays_ascDiscard (c : Cause) (hx : s.asc.st ≠ .exception) : Stays s (ascDiscard c s) :=
  (stays_emit ..).after (.asc_moves hx nofun)

theorem AscSt.ne_of_receiving {st : AscSt} (h : st.receiving = true) : st ≠ .exception := by
  rintro rfl; exact absurd h (by decide)

theorem stays_ascPollTimers (env : Inputs) (s : State) : Stays s (ascPollTimers env s) :=
  iteInduction (fun _ => iteInduction (fun h => stays_ascDiscard _ (AscSt.ne_of_receiving h)) fun _ =>
    iteInduction (fun h => (stays_notifyMaster ..).after (.asc_moves (by rw [h]; nofun) nofun)) fun _ => .refl s)
    fun _ => .refl s

theorem stays_ascFrameEnd (env : Inputs) (hx : s.asc.st ≠ .exception) : Stays s (ascFrameEnd env s) :=
  iteInduction (fun _ => stays_ascDiscard _ hx) fun _ => iteInduction (fun _ => stays_ascDiscard _ hx) fun _ =>
    iteInduction (fun _ => (stays_notifyMaster ..).after ((stays_emit ..).after (.asc_moves hx nofun))) fun _ =>
      stays_ascDiscard _ hx

theorem stays_ascPend (v : Byte) (hx : s.asc.st ≠ .exception) : Stays s (ascPend v s) := .asc_moves hx nofun

theorem stays_ascDecodedByte (v : Byte) (hx : s.asc.st ≠ .exception) : Stays s (ascDecodedByte v s) := by
  refine iteInduction (fun _ => iteInduction (fun _ => stays_ascDiscard _ hx) fun _ => ?_) fun _ => stays_ascPend v hx
  have hw := stays_bufWrite s .ascii s.asc.bufferLen s.asc.pend
  exact hw.andThen (.asc_moves (mt hw.asc.1 hx) nofun)

theorem stays_ascReceiveChar (env : Inputs) (c : Byte) (hx : s.asc.st ≠ .exception) :
    Stays s (ascReceiveChar env c s) := by
  unfold ascReceiveChar
  split
  · exact .asc_moves hx nofun
  · exact .asc_moves hx nofun
  · exact .asc_moves hx nofun
  · exact stays_ascDecodedByte _ hx
  · exact iteInduction (fun _ => .asc_moves hx nofun) fun _ => stays_ascDiscard _ hx
  · exact iteInduction (fun _ => stays_ascFrameEnd env hx) fun _ => stays_ascDiscard _ hx
  · exact stays_ascDiscard _ hx

theorem stays_ascOnChar (env : Inputs) (c : Byte) (s : State) : Stays s (ascOnChar env c s) := by
  refine Stays.trans (b := { s with asc := { s.asc with last := nowTick s.cfg env } }) (.of_eq rfl rfl rfl) ?_
  unfold ascOnChar
  dsimp only
  split
  next hst => exact iteInduction (fun _ => .asc_moves (by rw [hst]; nofun) nofun) fun _ => .refl _
  iterate 5 next hst =>
    exact iteInduction (fun _ => (stays_emit ..).trans (.asc_moves (by rw [hst]; nofun) nofun)) fun _ =>
      stays_ascReceiveChar env c (by rw [hst]; nofun)
  next hst => exact (stays_emit ..).after (.asc_moves (by rw [hst]; nofun) nofun)
  all_goals exact .refl _

theorem stays_ascReadError (s : State) : Stays s (ascReadError s) :=
  (stays_emit (.cause .ascii .rxTransport) s).trans
    (iteInduction (fun h => .asc_moves (AscSt.ne_of_receiving h) nofun) fun _ => .refl _)

theorem stays_ascDrain (env : Inputs) : ∀ (cs : List Byte) (s : State), Stays s (ascDrain env cs s)
  | [], s => iteInduction (fun _ => stays_ascReadError s) fun _ => .refl s
  | c :: cs, s => (stays_ascOnChar env c s).andThen (stays_ascDrain env cs _)

theorem stays_ascPoll (env : Inputs) (s : State) : Stays s (ascPoll env s) :=
  iteInduction (fun _ => stays_answer ..) fun _ =>
    (stays_ascPollTimers ..).andThen <| (stays_ascDrain ..).andThen <|
      Stays.andThen (iteInduction (fun _ => stays_ascTxProgress ..) fun _ => .refl _) (stays_answer ..)

theorem stays_rtuLineFrame (env : Inputs) (bytes : List Byte) (s : State) : Stays s (rtuLineFrame env bytes s) :=
  (stays_rtuPoll ..).andThen (stays_rtuPoll ..)

theorem stays_replyArrives (env : Inputs) (p : List Byte) (s : State) : Stays s (replyArrives env p s) := by
  unfold replyArrives
  split
  · exact stays_raise ..
  · exact stays_rtuLineFrame ..
  · exact stays_ascPoll ..

theorem Stays.command {f : State → State} (h : ∀ s, Stays s (f s)) : Stays s (s.command f) :=
  (Stays.refl s).andThen (((h _).after (stays_answer .none s)))

theorem Stays.masterCommand {f : State → State} (h : ∀ s, Stays s (f s)) : Stays s (s.masterCommand f) :=
  .command fun s => iteInduction (fun _ => h s) fun _ => stays_raise ..

theorem stays_hostAccess {u : FramerKind} {access : State → State} (h : ∀ s, Stays s (access s)) (s : State) :
    Stays s (hostAccess u access s) :=
  iteInduction (fun _ => stays_raise ..) fun _ => iteInduction (fun _ => stays_raise ..) fun _ => h s

end Ops

/-! ### The instructions -/

/-- SETUP's arguments are not valid (rule R205). -/
def InvalidSetup (c : Config) (baud ifdUs icdUs : Word32) : Prop :=
  c.usPerTick = 0 ∨ (baud = 0#32 ∧ (ifdUs = 0#32 ∨ icdUs = 0#32))

theorem setupInvalid_iff (c : Config) (baud ifdUs icdUs : Word32) :
    setupInvalid c baud.toNat ifdUs.toNat icdUs.toNat = true ↔ InvalidSetup c baud ifdUs icdUs := by
  simp [setupInvalid, InvalidSetup, BitVec.toNat_eq]

/-- What O58 says of the RTU framer, of the ASCII framer and of the engine, from `s` to `t` by `i`. -/
def RtuHealsByName (i : Instr) (s t : State) : Prop :=
  (s.rtu.st = .exception → t.rtu.st ≠ .exception →
    i = .rtuReset ∨ ∃ b f c, i = .rtuSetup b f c ∧ ¬ InvalidSetup s.cfg b f c) ∧
  (s.rtu.st ≠ .exception → t.rtu.st = .exception → ∃ b f c, i = .rtuSetup b f c ∧ InvalidSetup s.cfg b f c)

def AscHealsByName (i : Instr) (s t : State) : Prop :=
  (s.asc.st = .exception → t.asc.st ≠ .exception →
    s.cfg.usPerTick ≠ 0 ∧ (i = .ascReset ∨ ∃ ms, i = .ascSetTimeout ms)) ∧
  (s.asc.st ≠ .exception → t.asc.st = .exception →
    s.cfg.usPerTick = 0 ∧ (i = .ascReset ∨ ∃ ms, i = .ascSetTimeout ms))

def MstHealsByName (i : Instr) (s t : State) : Prop :=
  s.mst.st = .processingError → t.mst.st ≠ .processingError → i = .mReset ∨ i = .mAckError

def HealsByName (i : Instr) (s t : State) : Prop := RtuHealsByName i s t ∧ AscHealsByName i s t ∧ MstHealsByName i s t

section Heals

variable {i : Instr} {s t : State}

theorem rtuHealsByName_of_iff (h : t.rtu.st = .exception ↔ s.rtu.st = .exception) : RtuHealsByName i s t :=
  ⟨fun hs ht => absurd (h.2 hs) ht, fun hs ht => absurd (h.1 ht) hs⟩

theorem ascHealsByName_of_iff (h : t.asc.st = .exception ↔ s.asc.st = .exception) : AscHealsByName i s t :=
  ⟨fun hs ht => absurd (h.2 hs) ht, fun hs ht => absurd (h.1 ht) hs⟩

theorem mstHealsByName_of_imp (h : s.mst.st = .processingError → t.mst.st = .processingError) : MstHealsByName i s t :=
  fun hs ht => absurd (h hs) ht

theorem Stays.healsByName (h : Stays s t) : HealsByName i s t :=
  ⟨rtuHealsByName_of_iff h.rtu, ascHealsByName_of_iff h.asc, mstHealsByName_of_imp h.mst⟩

/-- After the instruction, where no fault stands: what the rules say of it. -/
theorem healsByName_command {f : State → State} (h : HealsByName i s (f (s.answer .none))) :
    HealsByName i s (s.command f) := by
  cases hf : s.fault with
  | some r => rw [State.command_of_fault _ hf]; exact (Stays.refl s).healsByName
  | none => rw [State.command_of_ok _ hf]; exact h

end Heals

/-- The instruction `i` answers a next state, and no unit heals by it unless the rules say so. -/
def NextHeals (i : Instr) (s : State) : Prop := ∃ t, exec i s = .next t ∧ HealsByName i s t

section Instructions

variable (s : State)

theorem nextHeals_rtuReset : NextHeals .rtuReset s :=
  ⟨_, rfl, healsByName_command
    ⟨⟨fun _ _ => .inl rfl, fun _ ht => nomatch ht⟩, ascHealsByName_of_iff Iff.rfl, mstHealsByName_of_imp id⟩⟩

theorem nextHeals_rtuSetup (b f c : Word32) : NextHeals (.rtuSetup b f c) s := by
  refine ⟨_, rfl, healsByName_command ?_⟩
  refine iteInduction (fun h => ?_) fun h => ?_
  · exact ⟨⟨fun _ ht => absurd rfl ht, fun _ _ => ⟨b, f, c, rfl, (setupInvalid_iff ..).1 h⟩⟩,
      ascHealsByName_of_iff Iff.rfl, mstHealsByName_of_imp id⟩
  · exact ⟨⟨fun _ _ => .inr ⟨b, f, c, rfl, mt (setupInvalid_iff ..).2 h⟩, fun _ ht => nomatch ht⟩,
      ascHealsByName_of_iff Iff.rfl, mstHealsByName_of_imp id⟩

theorem nextHeals_ascReset : NextHeals .ascReset s := by
  refine ⟨_, rfl, healsByName_command (iteInduction (fun h => ?_) fun h => ?_)⟩
  · have hx : (AscFramer.reset s.cfg (nowTick s.cfg s.inputs) s.asc.buf).st = .exception := if_pos h
    exact ⟨rtuHealsByName_of_iff Iff.rfl, ⟨fun _ ht => absurd hx ht, fun _ _ => ⟨h, .inl rfl⟩⟩, mstHealsByName_of_imp id⟩
  · have hx : (AscFramer.reset s.cfg (nowTick s.cfg s.inputs) s.asc.buf).st = .idle := if_neg h
    exact ⟨rtuHealsByName_of_iff Iff.rfl, ⟨fun _ _ => ⟨h, .inl rfl⟩, fun _ ht => nomatch hx.symm.trans ht⟩,
      mstHealsByName_of_imp id⟩

theorem nextHeals_ascSetTimeout (ms : Word32) : NextHeals (.ascSetTimeout ms) s := by
  refine ⟨_, rfl, healsByName_command (iteInduction (fun h => ?_) fun h => ?_)⟩
  · exact ⟨rtuHealsByName_of_iff Iff.rfl, ⟨fun _ ht => absurd rfl ht, fun _ _ => ⟨h, .inr ⟨ms, rfl⟩⟩⟩,
      mstHealsByName_of_imp id⟩
  · refine ⟨rtuHealsByName_of_iff Iff.rfl, ⟨fun _ _ => ⟨h, .inr ⟨ms, rfl⟩⟩, fun hs ht => ?_⟩, mstHealsByName_of_imp id⟩
    exact absurd ((congrArg AscFramer.st (if_neg hs)).symm.trans ht) hs

theorem nextHeals_mReset : NextHeals .mReset s :=
  ⟨_, rfl, healsByName_command (iteInduction
    (fun _ => ⟨rtuHealsByName_of_iff Iff.rfl, ascHealsByName_of_iff Iff.rfl, fun _ _ => .inl rfl⟩)
    fun _ => (stays_raise ..).healsByName)⟩

theorem nextHeals_mAckError : NextHeals .mAckError s :=
  ⟨_, rfl, healsByName_command (iteInduction (fun _ => iteInduction
    (fun _ => ⟨rtuHealsByName_of_iff Iff.rfl, ascHealsByName_of_iff Iff.rfl, fun _ _ => .inr rfl⟩)
    fun _ => (stays_answer ..).healsByName) fun _ => (stays_raise ..).healsByName)⟩

variable {s} in
/-- An instruction that the rules do not name. -/
theorem nextHeals_command {i : Instr} {f : State → State} (e : exec i s = .next (s.command f)) (h : ∀ s, Stays s (f s)) :
    NextHeals i s := ⟨_, e, (Stays.command h).healsByName⟩

variable {s} in
theorem nextHeals_masterCommand {i : Instr} {f : State → State} (e : exec i s = .next (s.masterCommand f))
    (h : ∀ s, Stays s (f s)) : NextHeals i s := ⟨_, e, (Stays.masterCommand h).healsByName⟩

theorem nextHeals_request {i : Instr} {slave : Byte} {p : RequestPlan} (e : exec i s = requestCommand slave p s) :
    NextHeals i s := nextHeals_command e fun _ => stays_masterRequest ..

theorem nextHeals_checkedRequest {i : Instr} {ok : Bool} {slave : Byte} {p : RequestPlan}
    (e : exec i s = checkedRequest ok slave p s) : NextHeals i s :=
  nextHeals_command e fun _ => iteInduction (fun _ => stays_masterRequest ..) fun _ => stays_raise ..

theorem nextHeals_reply {i : Instr} {p : List Byte} (e : exec i s = replyCommand p s) : NextHeals i s :=
  nextHeals_command e fun _ => stays_replyArrives ..

theorem nextHeals_beginSend_rtu : NextHeals .rtuBeginSend s :=
  nextHeals_command rfl fun _ => iteInduction (fun _ => iteInduction
    (fun h => (stays_answer ..).after (stays_enterQueue h)) fun _ => stays_answer ..) fun _ => stays_raise ..

theorem nextHeals_beginSend_asc : NextHeals .ascBeginSend s :=
  nextHeals_command rfl fun _ => iteInduction
    (fun h => (stays_answer ..).after (stays_enterQueue h)) fun _ => stays_answer ..

theorem inQueue_of_canSend {s : State} {u : FramerKind} (h : s.canSend u = true) : s.inQueue u = true := by
  simp only [State.canSend, Bool.and_eq_true] at h
  exact h.1

theorem nextHeals_send_rtu : NextHeals .rtuSend s :=
  nextHeals_command rfl fun _ => iteInduction (fun _ => iteInduction
    (fun h => (stays_framerTransmit _ (inQueue_of_canSend h)).andThen (stays_answer ..)) fun _ => stays_answer ..)
    fun _ => stays_raise ..

theorem nextHeals_send_asc : NextHeals .ascSend s :=
  nextHeals_command rfl fun _ => iteInduction
    (fun h => (stays_framerTransmit _ (inQueue_of_canSend h)).andThen (stays_answer ..)) fun _ => stays_answer ..

theorem stays_bufRead (u : FramerKind) (k : Nat) (s : State) : Stays s
    (match s.bufRead u k with | .ok v => s.answer (.byte v) | .error f => s.raise f) := by
  split
  · exact stays_answer ..
  · exact stays_raise ..

theorem nextHeals_setFrame (u : FramerKind) (a : Byte) (n : Word16) : NextHeals (.setFrame u a n) s :=
  nextHeals_command rfl fun _ => iteInduction (fun _ => stays_raise ..) fun _ => iteInduction (fun _ => stays_raise ..)
    fun _ => iteInduction (fun _ => stays_raise ..) fun _ => by cases u <;> exact .of_eq rfl rfl rfl

theorem nextHeals : ∀ i : Instr, NextHeals i s
  | .rtuReset => nextHeals_rtuReset s
  | .ascReset => nextHeals_ascReset s
  | .rtuSetup b f c => nextHeals_rtuSetup s b f c
  | .ascSetTimeout ms => nextHeals_ascSetTimeout s ms
  | .mReset => nextHeals_mReset s
  | .mAckError => nextHeals_mAckError s
  | .rtuSetStationAddress _ | .ascSetStationAddress _ => nextHeals_command rfl fun _ => .of_eq rfl rfl rfl
  | .rtuPoll => nextHeals_command rfl fun _ => stays_rtuPoll ..
  | .ascPoll => nextHeals_command rfl fun _ => stays_ascPoll ..
  | .rtuBeginSend => nextHeals_beginSend_rtu s
  | .ascBeginSend => nextHeals_beginSend_asc s
  | .rtuSend => nextHeals_send_rtu s
  | .ascSend => nextHeals_send_asc s
  | .rtuFinished => nextHeals_command rfl stays_rtuFinished
  | .ascFinished => nextHeals_command rfl stays_ascFinished
  | .bufRead u i => nextHeals_command rfl (stays_hostAccess (stays_bufRead u i.toNat))
  | .bufWrite u i v => nextHeals_command rfl (stays_hostAccess fun s => stays_bufWrite s u i.toNat v)
  | .setFrame u a n => nextHeals_setFrame s u a n
  | .readStatus _ => nextHeals_command rfl fun _ => stays_answer ..
  | .mSetResponseTimeout _ | .mSetTurnaround _ => nextHeals_masterCommand rfl fun _ => .of_eq rfl rfl rfl
  | .mPoll => nextHeals_masterCommand rfl fun _ => stays_masterPoll ..
  | .mReadStatus => nextHeals_masterCommand rfl fun _ => stays_answer ..
  | .readCoils .. | .readDiscreteInputs .. | .readHoldingRegisters .. | .readInputRegisters .. | .writeSingleRegister ..
  | .pduReqReadCoils .. | .pduReqReadDiscreteInputs .. | .pduReqReadHoldingRegisters .. | .pduReqReadInputRegisters ..
  | .pduReqWriteSingleRegister .. => nextHeals_request s rfl
  | .writeSingleCoil .. | .writeMultipleCoils .. | .writeMultipleRegisters .. | .readWriteMultipleRegisters ..
  | .pduReqWriteSingleCoil .. | .pduReqWriteMultipleCoils .. | .pduReqWriteMultipleRegisters ..
  | .pduReqReadWriteMultipleRegisters .. => nextHeals_checkedRequest s rfl
  | .pduRspReadCoils .. | .pduRspReadDiscreteInputs .. | .pduRspReadHoldingRegisters .. | .pduRspReadInputRegisters ..
  | .pduRspWriteSingleCoil .. | .pduRspWriteSingleRegister .. | .pduRspWriteMultipleCoils ..
  | .pduRspWriteMultipleRegisters .. | .pduRspReadWriteMultipleRegisters .. | .pduRspException .. | .pduRspOther .. =>
      nextHeals_reply s rfl
  | .rtuAdu .. => nextHeals_command rfl fun _ => stays_rtuLineFrame ..
  | .asciiAdu .. => nextHeals_command rfl fun _ => stays_ascPoll ..

end Instructions

/-- Settles O58: every operation stays in the unrecoverable states, but for the six commands that the rules name. -/
theorem unrecoverableStatesDoNotHeal : Obligations.UnrecoverableStatesDoNotHeal := by
  intro i s t e
  obtain ⟨t', e', ⟨hleave, henter⟩, ⟨hleave', henter'⟩, hmst⟩ := nextHeals s i
  cases e'.symm.trans e
  exact ⟨hleave, henter, hleave', henter', hmst⟩

end Sys2Proof.Machine
end

section
/-! PROOFS. O40, O41, and the RTU part of O45: what one POLL does with nothing and with a read error, before and after the
window that a timer ends (rules R211 to R226, R240). -/

namespace Sys2Proof.Machine

/-! ### The timers, state by state (rule R212) -/

section Timers

variable {env : Inputs} {s : State}

/-- Where the master engine is not bound to the framer, nobody is told. -/
theorem notifyMaster_of_unbound {u : FramerKind} (hm : s.cfg.master ≠ some u) : notifyMaster u env s = s := if_neg hm

section Reached

variable (h : reached s.rtu.t35 (rtuElapsed env s) = true)
include h

theorem rtuPollTimers_txWait (hst : s.rtu.st = .txWait) :
    rtuPollTimers env s = { s with rtu := { s.rtu with st := .idle, bufferLen := 0 } } := by
  rw [rtuPollTimers, if_pos h, hst]

theorem rtuPollTimers_collision (hst : s.rtu.st = .collision) (hm : s.cfg.master ≠ some .rtu) :
    rtuPollTimers env s = { s with rtu := { s.rtu with st := .frameReady } } := by
  rw [rtuPollTimers, if_pos h, hst]
  exact notifyMaster_of_unbound hm

end Reached

/-! ### The end of a frame: the causes in the order of rule R606 (d) -/

theorem rtuFrameEnd_short (h : s.rtu.rxCount < 3 + s.cfg.minPdu) : rtuFrameEnd env s = rtuReject .short s := if_pos h

section LongEnough

variable (h : 3 + s.cfg.minPdu ≤ s.rtu.rxCount)
include h

theorem rtuFrameEnd_crc (hcrc : s.rtu.crc ≠ 0x0000#16) : rtuFrameEnd env s = rtuReject .crc s := by
  rw [rtuFrameEnd, if_neg (by omega), if_pos hcrc]

theorem rtuFrameEnd_address (hcrc : s.rtu.crc = 0x0000#16)
    (ha : ¬(s.rtu.stationAddress = 0#8 ∨ s.rtu.frameAddress = s.rtu.stationAddress ∨ s.rtu.frameAddress = 0#8)) :
    rtuFrameEnd env s = rtuReject .address s := by
  rw [rtuFrameEnd, if_neg (by omega), if_neg (not_not.2 hcrc), if_neg (mt (addrOk_iff ..).1 ha)]

theorem rtuFrameEnd_valid (hcrc : s.rtu.crc = 0x0000#16)
    (ha : s.rtu.stationAddress = 0#8 ∨ s.rtu.frameAddress = s.rtu.stationAddress ∨ s.rtu.frameAddress = 0#8) :
    rtuFrameEnd env s =
      notifyMaster .rtu env ({ s with rtu := { s.rtu with st := .frameReady } }.emit (.frameReady .rtu)) := by
  rw [rtuFrameEnd, if_neg (by omega), if_neg (not_not.2 hcrc), if_pos ((addrOk_iff ..).2 ha)]

end LongEnough
end Timers

/-! ### One POLL of an RTU framer that does not transmit -/

section Poll

variable {s t u : State} {t15 t35 d : Nat}

/-- A POLL from its phases: the timers lead to `t`, the drain to `u`, whose deadline is `d` (rule R211). -/
theorem exec_rtuPoll_eq (hf : s.fault = none) (hc : s.rtu.configured = true) (hx : s.rtu.st ≠ .exception)
    (ht : rtuPollTimers s.inputs (s.answer .none) = t) (htf : t.fault = none)
    (hu : rtuDrain s.inputs s.inputs.rx t = u) (huf : u.fault = none) (hsilent : u.rtu.st.transmitting = false)
    (hd : rtuDeadline s.inputs u = d) : exec .rtuPoll s = .next (u.answer (.ticks d)) := by
  rw [exec_rtuPoll_of_phases hf hc hx ht htf hu huf (rtuTransmitPhase_of_not hsilent) huf, hd]

/-- A stream with nothing. -/
theorem rtuDrain_nothing (hrx : s.inputs.rx = []) (he : s.inputs.rxError = false) (t : State) :
    rtuDrain s.inputs s.inputs.rx t = t := by rw [hrx, rtuDrain, he, if_neg Bool.false_ne_true]

/-- A stream with an ERROR. -/
theorem rtuDrain_error (hrx : s.inputs.rx = []) (he : s.inputs.rxError = true) (t : State) :
    rtuDrain s.inputs s.inputs.rx t = rtuReadError s.inputs t := by rw [hrx, rtuDrain, he, if_pos rfl]

/-- A stream with one byte. -/
theorem rtuDrain_byte {b : Byte} (hrx : s.inputs.rx = [b]) (he : s.inputs.rxError = false) (t : State) :
    rtuDrain s.inputs s.inputs.rx t = rtuOnByte s.inputs b t := by
  simp [hrx, rtuDrain, he]

/-- The window of T3.5 has elapsed. -/
theorem reached_of_le (h35 : s.rtu.t35 = some t35) (hle : t35 ≤ tickDiff s.cfg s.now s.rtu.last) :
    reached (s.answer .none).rtu.t35 (rtuElapsed s.inputs (s.answer .none)) = true := by
  rw [show (s.answer .none).rtu.t35 = some t35 from h35]
  exact decide_eq_true hle

/-- It has not. -/
theorem reached_of_lt (h35 : s.rtu.t35 = some t35) (hlt : tickDiff s.cfg s.now s.rtu.last < t35) :
    reached (s.answer .none).rtu.t35 (rtuElapsed s.inputs (s.answer .none)) = false := by
  rw [show (s.answer .none).rtu.t35 = some t35 from h35]
  exact decide_eq_false (Nat.not_le.2 hlt)

end Poll

/-- Settles O40: the timers end `dump`, `collision` and `tx_wait`; where they do not act, the POLL returns what is left. -/
theorem rtuSilenceRules : Obligations.RtuSilenceRules := by
  intro s t15 t35 hf hc h15 h35 hrx he e
  have quiet {t : State} {d : Nat} (hx : s.rtu.st ≠ .exception) (ht : rtuPollTimers s.inputs (s.answer .none) = t)
      (htf : t.fault = none) (hsilent : t.rtu.st.transmitting = false) (hd : rtuDeadline s.inputs t = d) :
      exec .rtuPoll s = .next (t.answer (.ticks d)) :=
    exec_rtuPoll_eq hf hc hx ht htf (rtuDrain_nothing hrx he t) htf hsilent hd
  refine ⟨fun hst hle => ?_, fun hst hle hm => ?_, fun hst hle => ?_, fun hst hlt => ?_, fun hst hlt => ?_, fun hst => ?_⟩
  · exact quiet (by rw [hst]; nofun) (rtuPollTimers_dump (reached_of_le h35 hle) hst) hf rfl rfl
  · exact quiet (by rw [hst]; nofun) (rtuPollTimers_collision (reached_of_le h35 hle) hst hm) hf rfl rfl
  · exact quiet (by rw [hst]; nofun) (rtuPollTimers_txWait (reached_of_le h35 hle) hst) hf rfl rfl
  · have hmem : s.rtu.st ∈ [RtuSt.dump, .collision, .txWait] := by simpa using hst
    refine quiet (t := s.answer .none) ?_ (rtuPollTimers_open (reached_of_lt h35 hlt)) hf ?_ ?_
    · rintro hx; simp [hx] at hst
    · change s.rtu.st.transmitting = false
      obtain e | e | e := hst <;> rw [e] <;> rfl
    · rw [rtuDeadline_waiting (t := s.answer .none) hmem, show (s.answer .none).rtu.t35 = some t35 from h35]
      rfl
  · refine quiet (t := s.answer .none) (by rw [hst]; nofun) (rtuPollTimers_open (reached_of_lt h35 hlt)) hf ?_ ?_
    · change s.rtu.st.transmitting = false
      rw [hst]; rfl
    · rw [rtuDeadline_receive (t := s.answer .none) hst, show (s.answer .none).rtu.t35 = some t35 from h35,
        show (s.answer .none).rtu.t15 = some t15 from h15]
      rfl
  · have hmem : s.rtu.st ∈ [RtuSt.exception, .idle, .frameReady, .queue] := by obtain e | e := hst <;> simp [e]
    refine quiet (t := s.answer .none) ?_ (rtuPollTimers_untimed ?_) hf ?_ (rtuDeadline_resting hmem)
    · rintro hx; simp [hx] at hst
    · change s.rtu.st.timed = false
      obtain e | e := hst <;> rw [e] <;> rfl
    · change s.rtu.st.transmitting = false
      obtain e | e := hst <;> rw [e] <;> rfl

/-- Settles O41: after T3.5 of silence the frame ends with the first cause that holds, or it is ready. -/
theorem rtuFrameEnd_checksInOrder : Obligations.RtuFrameEnd := by
  intro s t35 hf hc hst h35 hle hrx he rejected passes
  have hframe := rtuPollTimers_receive (s := s.answer .none) (reached_of_le h35 hle) hst
  have ends {t : State} (ht : rtuFrameEnd s.inputs (s.answer .none) = t) (htf : t.fault = none)
      (hsilent : t.rtu.st.transmitting = false) (hd : rtuDeadline s.inputs t = 0) :
      exec .rtuPoll s = .next (t.answer (.ticks 0)) :=
    exec_rtuPoll_eq hf hc (by rw [hst]; nofun) (hframe.trans ht) htf (rtuDrain_nothing hrx he t) htf hsilent hd
  refine ⟨fun hshort => ?_, fun hlong hcrc => ?_, fun hlong hcrc ha => ?_, fun hlong hcrc ha hm => ?_⟩
  · exact ends (rtuFrameEnd_short hshort) hf rfl rfl
  · exact ends (rtuFrameEnd_crc hlong hcrc) hf rfl rfl
  · exact ends (rtuFrameEnd_address hlong hcrc ha) hf rfl rfl
  · exact ends ((rtuFrameEnd_valid (s := s.answer .none) hlong hcrc ha).trans (notifyMaster_of_unbound hm)) hf rfl rfl

/-! ### A read error -/

section ReadError

variable {env : Inputs} {s : State}

/-- The window of a state that a timer ends, when the framer is stamped (rule R226). -/
theorem rtuDeadline_stamped (h : s.rtu.st ∈ [RtuSt.dump, .collision, .txWait]) (hl : s.rtu.last = nowTick s.cfg env) :
    rtuDeadline env s = s.rtu.t35.getD 0 := by
  rw [rtuDeadline_waiting h, rtuElapsed_of_stamped hl, Nat.sub_zero]

/-- A read error where a frame may be on its way (rule R240). -/
theorem rtuReadError_dumps (h : s.rtu.st = .idle ∨ s.rtu.st = .receive ∨ s.rtu.st = .dump) : rtuReadError env s = { s with
    events := s.events ++ [.cause .rtu .rxTransport]
    rtu := { s.rtu with st := .dump, bufferLen := 0, last := nowTick s.cfg env } } := by
  have e : (s.emitCause .rtu .rxTransport).rtu.st = s.rtu.st := rfl
  unfold rtuReadError
  dsimp only
  rw [e]
  obtain h | h | h := h <;> rw [h] <;> rfl

/-- A read error in the other states (rule R240). -/
theorem rtuReadError_keeps (h : s.rtu.st ∉ [RtuSt.idle, .receive, .dump]) :
    rtuReadError env s = s.emitCause .rtu .rxTransport := by
  have e : (s.emitCause .rtu .rxTransport).rtu.st = s.rtu.st := rfl
  revert h
  unfold rtuReadError
  dsimp only
  rw [e]
  cases s.rtu.st <;> simp

end ReadError

/-- O45 of an RTU framer, where a timer may end the state. -/
theorem rtuReadErrors_timed {s : State} {t35 : Nat} (hf : s.fault = none) (hc : s.rtu.configured = true)
    (h35 : s.rtu.t35 = some t35) (hrx : s.inputs.rx = []) (he : s.inputs.rxError = true) :
    let e := tickDiff s.cfg s.now s.rtu.last
    let dumped : Prop := exec .rtuPoll s = .next { s with
      result := .ticks t35, events := s.events ++ [.cause .rtu .rxTransport]
      rtu := { s.rtu with st := .dump, bufferLen := 0, last := s.now } }
    (s.rtu.st = .idle → dumped) ∧
      (s.rtu.st = .receive ∨ s.rtu.st = .dump → e < t35 → dumped) ∧
      (s.rtu.st = .collision ∨ s.rtu.st = .txWait → e < t35 → exec .rtuPoll s = .next { s with
        result := .ticks (t35 - e), events := s.events ++ [.cause .rtu .rxTransport] }) := by
  intro e dumped
  have dumps (h : s.rtu.st = .idle ∨ s.rtu.st = .receive ∨ s.rtu.st = .dump)
      (ht : rtuPollTimers s.inputs (s.answer .none) = s.answer .none) : dumped := by
    refine exec_rtuPoll_eq hf hc ?_ ht hf ((rtuDrain_error hrx he _).trans (rtuReadError_dumps h)) hf rfl ?_
    · rintro hx; simp [hx] at h
    · exact (rtuDeadline_stamped (by simp) rfl).trans (congrArg (Option.getD · 0) h35)
  refine ⟨fun hst => dumps (.inl hst) (rtuPollTimers_untimed (by rw [show (s.answer .none).rtu.st = _ from hst]; rfl)),
    fun hst hlt => dumps (.inr hst) (rtuPollTimers_open (reached_of_lt h35 hlt)), fun hst hlt => ?_⟩
  have hkept : (s.answer .none).rtu.st ∉ [RtuSt.idle, .receive, .dump] := by
    change s.rtu.st ∉ _
    obtain h | h := hst <;> simp [h]
  have hmem : s.rtu.st ∈ [RtuSt.dump, .collision, .txWait] := by obtain h | h := hst <;> simp [h]
  have hsilent : s.rtu.st.transmitting = false := by obtain h | h := hst <;> rw [h] <;> rfl
  refine exec_rtuPoll_eq hf hc ?_ (rtuPollTimers_open (reached_of_lt h35 hlt)) hf
    ((rtuDrain_error hrx he _).trans (rtuReadError_keeps hkept)) hf hsilent ?_
  · rintro hx; simp [hx] at hst
  · exact (rtuDeadline_waiting hmem).trans (congrArg (fun t => Option.getD t 0 - e) h35)

/-- O45 of an RTU framer, where no timer ends the state. -/
theorem rtuReadErrors_resting {s : State} (hf : s.fault = none) (hc : s.rtu.configured = true)
    (hrx : s.inputs.rx = []) (he : s.inputs.rxError = true) (hst : s.rtu.st = .frameReady ∨ s.rtu.st = .queue) :
    exec .rtuPoll s = .next { s with result := .ticks 0, events := s.events ++ [.cause .rtu .rxTransport] } := by
  have hkept : (s.answer .none).rtu.st ∉ [RtuSt.idle, .receive, .dump] := by
    change s.rtu.st ∉ _
    obtain h | h := hst <;> simp [h]
  have hmem : s.rtu.st ∈ [RtuSt.exception, .idle, .frameReady, .queue] := by obtain h | h := hst <;> simp [h]
  have hsilent : s.rtu.st.transmitting = false := by obtain h | h := hst <;> rw [h] <;> rfl
  have htimed : s.rtu.st.timed = false := by obtain h | h := hst <;> rw [h] <;> rfl
  refine exec_rtuPoll_eq hf hc ?_ (rtuPollTimers_untimed htimed) hf
    ((rtuDrain_error hrx he _).trans (rtuReadError_keeps hkept)) hf hsilent (rtuDeadline_resting hmem)
  rintro hx; simp [hx] at hst

end Sys2Proof.Machine
end

section
/-! PROOFS. O38 and O45: POLLs of the ASCII framer (rules R305, R316, R317, R327), and the two statements. -/

namespace Sys2Proof.Machine

/-! ### One POLL of an ASCII framer that does not transmit -/

section Poll

variable {env : Inputs} {s t u : State} {d : Nat}

/-- A POLL in `exception` (rules R305, R327). -/
theorem exec_ascPoll_exception (hf : s.fault = none) (hx : s.asc.st = .exception) :
    exec .ascPoll s = .next (s.answer (.ticks 0)) := by
  change Host.Outcome.next (s.command _) = _
  rw [State.command_of_ok _ hf]
  change Host.Outcome.next (ascPoll s.inputs (s.answer .none)) = _
  rw [ascPoll, if_pos (by exact hx)]
  rfl

/-- A POLL from its phases: the timers lead to `t`, the drain to `u`, whose deadline is `d` (rule R305). -/
theorem exec_ascPoll_eq (hf : s.fault = none) (hx : s.asc.st ≠ .exception)
    (ht : ascPollTimers s.inputs (s.answer .none) = t) (htf : t.fault = none)
    (hu : ascDrain s.inputs s.inputs.rx t = u) (huf : u.fault = none) (hsilent : u.asc.st.transmitting = false)
    (hd : ascDeadline s.inputs u = d) : exec .ascPoll s = .next (u.answer (.ticks d)) := by
  have hphase : ascTransmitPhase s.inputs u = u := by rw [ascTransmitPhase, hsilent, if_neg Bool.false_ne_true]
  change Host.Outcome.next (s.command _) = _
  rw [State.command_of_ok _ hf]
  change Host.Outcome.next (ascPoll s.inputs (s.answer .none)) = _
  rw [ascPoll, if_neg (by exact hx), ht, State.andThen_of_ok _ htf, hu, State.andThen_of_ok _ huf, hphase,
    State.andThen_of_ok _ huf, hd]

theorem ascDrain_nothing (hrx : s.inputs.rx = []) (he : s.inputs.rxError = false) (t : State) :
    ascDrain s.inputs s.inputs.rx t = t := by rw [hrx, ascDrain, he, if_neg Bool.false_ne_true]

theorem ascDrain_error (hrx : s.inputs.rx = []) (he : s.inputs.rxError = true) (t : State) :
    ascDrain s.inputs s.inputs.rx t = ascReadError t := by rw [hrx, ascDrain, he, if_pos rfl]

/-- A state with no deadline (rule R316). -/
theorem ascDeadline_resting (h : s.asc.st = .idle ∨ s.asc.st = .frameReady ∨ s.asc.st = .queue) :
    ascDeadline env s = 0 := by
  obtain h | h | h := h <;> simp [ascDeadline, h]

theorem ascDeadline_collision (h : s.asc.st = .collision) :
    ascDeadline env s = s.asc.timeoutTicks - ascElapsed env s := by simp [ascDeadline, h]

/-- A read error abandons a frame that is being received (rule R317). -/
theorem ascReadError_receiving (h : s.asc.st.receiving = true) : ascReadError s = { s with
    events := s.events ++ [.cause .ascii .rxTransport], asc := { s.asc with st := .idle, bufferLen := 0 } } := if_pos h

theorem ascReadError_keeps (h : s.asc.st.receiving = false) : ascReadError s = s.emitCause .ascii .rxTransport :=
  if_neg (by rw [Bool.not_eq_true]; exact h)

end Poll

/-- O45 of an ASCII framer that does not receive: the timers and the drain leave it alone. -/
theorem ascReadErrors_keeps {s : State} {d : Nat} (hf : s.fault = none) (hrx : s.inputs.rx = [])
    (he : s.inputs.rxError = true)
    (hst : s.asc.st = .idle ∨ s.asc.st = .frameReady ∨ s.asc.st = .queue ∨ s.asc.st = .collision)
    (hopen : s.asc.st.timed → tickDiff s.cfg s.now s.asc.last < s.asc.timeoutTicks)
    (hd : ascDeadline s.inputs s = d) :
    exec .ascPoll s = .next { s with result := .ticks d, events := s.events ++ [.cause .ascii .rxTransport] } := by
  have hrec : s.asc.st.receiving = false := by obtain h | h | h | h := hst <;> rw [h] <;> rfl
  have hsilent : s.asc.st.transmitting = false := by obtain h | h | h | h := hst <;> rw [h] <;> rfl
  refine exec_ascPoll_eq hf ?_ (ascPollTimers_eq (s := s.answer .none) hopen) hf
    ((ascDrain_error hrx he _).trans (ascReadError_keeps hrec)) hf hsilent hd
  rintro hx; simp [hx] at hst

/-- Settles O45: before a timer acts, the read error is all that happens. -/
theorem readErrors : Obligations.ReadErrors := by
  intro s hf hrx he e dumped
  refine ⟨fun t35 hc h35 => rtuReadErrors_timed hf hc h35 hrx he, fun hc => rtuReadErrors_resting hf hc hrx he,
    fun hst hlt => ?_, fun hst => ?_, fun hst hlt => ?_⟩
  · exact exec_ascPoll_eq hf (AscSt.ne_of_receiving hst) (ascPollTimers_eq (s := s.answer .none) fun _ => hlt) hf
      ((ascDrain_error hrx he _).trans (ascReadError_receiving hst)) hf rfl rfl
  · refine ascReadErrors_keeps hf hrx he (by obtain h | h | h := hst <;> simp [h]) (fun htimed => ?_)
      (ascDeadline_resting hst)
    obtain h | h | h := hst <;> simp [h, AscSt.timed, AscSt.receiving] at htimed
  · exact ascReadErrors_keeps hf hrx he (.inr (.inr (.inr hst))) (fun _ => hlt) (ascDeadline_collision hst)

/-- Settles O38: in `exception` a POLL returns before its phases; in `idle` each of them finds nothing to do. -/
theorem pollWithNothingToDo : Obligations.PollWithNothingToDo := by
  refine fun s hf => ⟨fun hc h => ?_, fun h => ?_⟩
  · obtain hx | ⟨hst, hrx, he⟩ := h
    · exact exec_rtuPoll_exception hf hc hx
    · exact exec_rtuPoll_eq (u := s.answer .none) hf hc (by rw [hst]; nofun)
        (rtuPollTimers_idle (s := s.answer .none) hst) hf
        (rtuDrain_nothing hrx he _) hf (by change s.rtu.st.transmitting = false; rw [hst]; rfl)
        (rtuDeadline_idle hst)
  · obtain hx | ⟨hst, hrx, he⟩ := h
    · exact exec_ascPoll_exception hf hx
    · refine exec_ascPoll_eq (u := s.answer .none) hf (by rw [hst]; nofun)
        (ascPollTimers_eq (s := s.answer .none) fun htimed => ?_) hf
        (ascDrain_nothing hrx he _) hf (by change s.asc.st.transmitting = false; rw [hst]; rfl)
        (ascDeadline_resting (.inl hst))
      simp [hst, AscSt.timed, AscSt.receiving] at htimed

end Sys2Proof.Machine
end

section
/-! PROOFS. O39: one byte, of an RTU framer that does not transmit (rules R214 to R219, R227). -/

namespace Sys2Proof.Machine

/-! ### One byte, of an RTU framer that does not transmit -/

section Receive

variable {env : Inputs} {s : State} {t15 : Nat}

/-- In `receive` after a byte, the window of T1.5 is whole (rule R226). -/
theorem rtuDeadline_receive_stamped (hst : s.rtu.st = .receive) (hl : s.rtu.last = nowTick s.cfg env)
    (h15 : s.rtu.t15 = some t15) (hpos : 0 < t15) : rtuDeadline env s = t15 := by
  rw [rtuDeadline_receive hst, rtuElapsed_of_stamped hl, h15]
  exact if_pos hpos

/-- `on_byte` in `receive`. -/
theorem rtuOnByte_receive (b : Byte) (hst : s.rtu.st = .receive) : rtuOnByte env b s =
    rtuReceiveByte b (rtuElapsed env s) { s with rtu := { s.rtu with last := nowTick s.cfg env } } := by
  unfold rtuOnByte
  dsimp only
  rw [hst]

/-- The branches of `on_byte` in `receive` (rules R217, R227). -/
theorem rtuReceiveByte_late {b : Byte} {gap : Nat} (h15 : s.rtu.t15 = some t15) (h : t15 < gap) :
    rtuReceiveByte b gap s = rtuDump .interchar s := if_pos (by rw [h15]; exact decide_eq_true h)

section InTime

variable {b : Byte} {gap : Nat} (h15 : s.rtu.t15 = some t15) (h : gap ≤ t15)
include h15 h

theorem not_exceeded_of_le : ¬ exceeded s.rtu.t15 gap = true := by
  rw [h15]; simpa [exceeded] using h

theorem rtuReceiveByte_first (hn : s.rtu.holdN = 0) :
    rtuReceiveByte b gap s = rtuCountByte b { s with rtu := { s.rtu with hold0 := b, holdN := 1 } } := by
  rw [rtuReceiveByte, if_neg (not_exceeded_of_le h15 h), if_neg (by simp [hn]), if_neg (by simp [hn])]

theorem rtuReceiveByte_second (hn : s.rtu.holdN = 1) :
    rtuReceiveByte b gap s = rtuCountByte b { s with rtu := { s.rtu with hold1 := b, holdN := 2 } } := by
  rw [rtuReceiveByte, if_neg (not_exceeded_of_le h15 h), if_neg (by simp [hn]), if_pos hn]

theorem rtuReceiveByte_overflow (hn : s.rtu.holdN = 2) (hcap : s.rtu.bufferLen = cap s.cfg) :
    rtuReceiveByte b gap s = rtuDump .overflow s := by
  rw [rtuReceiveByte, if_neg (not_exceeded_of_le h15 h), if_pos hn, if_pos hcap]

theorem rtuReceiveByte_commit (hf : s.fault = none) (hn : s.rtu.holdN = 2) (hcap : s.rtu.bufferLen < cap s.cfg) :
    rtuReceiveByte b gap s = rtuCountByte b { s with rtu := { s.rtu with
      bufferLen := s.rtu.bufferLen + 1, hold0 := s.rtu.hold1, hold1 := b
      buf := s.rtu.buf.write s.rtu.bufferLen s.rtu.hold0 } } := by
  have hroom : s.rtu.bufferLen < s.cfg.bufferMax := hcap.trans_le (cap_le s.cfg).1
  rw [rtuReceiveByte, if_neg (not_exceeded_of_le h15 h), if_pos hn, if_neg hcap.ne, rtuCommit, State.bufWrite,
    if_pos hroom, State.andThen_of_ok _ (by exact hf)]
  rfl

end InTime
end Receive

section Byte

variable {s : State} {b : Byte} {t15 t35 : Nat} (hf : s.fault = none) (hc : s.rtu.configured = true)
  (hrx : s.inputs.rx = [b]) (he : s.inputs.rxError = false) (hx : s.rtu.st ≠ .exception)
include hf hc hrx he hx

/-- The timers leave the framer in `idle`, and the byte starts a frame (rule R216). -/
theorem exec_rtuPoll_starts (h15 : s.rtu.t15 = some t15) (hpos : 0 < t15) (ev : List Event) (n : Nat)
    (ht : rtuPollTimers s.inputs (s.answer .none) = { s with
      result := .none, events := s.events ++ ev, rtu := { s.rtu with st := .idle, bufferLen := n } }) :
    exec .rtuPoll s = .next { s with
      result := .ticks t15, events := s.events ++ ev
      rtu := { s.rtu with last := s.now, frameAddress := b, crc := crcUpdate 0xFFFF#16 b, rxCount := 1, holdN := 0,
                          bufferLen := 0, st := .receive } } :=
  exec_rtuPoll_eq hf hc hx ht hf (rtuDrain_byte hrx he _) hf rfl (rtuDeadline_receive_stamped rfl rfl h15 hpos)

/-- The timers leave the framer in `frame_ready`, and the byte is a collision (rule R219). -/
theorem exec_rtuPoll_collides (h35 : s.rtu.t35 = some t35) (ev : List Event)
    (ht : rtuPollTimers s.inputs (s.answer .none) = { s with
      result := .none, events := s.events ++ ev, rtu := { s.rtu with st := .frameReady } }) :
    exec .rtuPoll s = .next { s with
      result := .ticks t35, events := s.events ++ ev ++ [.cause .rtu .collision]
      rtu := { s.rtu with last := s.now, st := .collision } } :=
  exec_rtuPoll_eq hf hc hx ht hf (rtuDrain_byte hrx he _) hf rfl
    ((rtuDeadline_stamped (by simp [rtuOnByte]) rfl).trans (congrArg (Option.getD · 0) h35))

/-- The timers and the byte leave the state alone; the byte restamps the framer (rules R214, R218). -/
theorem exec_rtuPoll_restamps {d : Nat} (hst : s.rtu.st ∈ [RtuSt.dump, .collision, .queue, .txWait])
    (ht : rtuPollTimers s.inputs (s.answer .none) = s.answer .none)
    (hd : rtuDeadline s.inputs { s with result := .none, rtu := { s.rtu with last := s.now } } = d) :
    exec .rtuPoll s = .next { s with result := .ticks d, rtu := { s.rtu with last := s.now } } := by
  have hsilent : s.rtu.st.transmitting = false := by revert hst; cases s.rtu.st <;> simp [RtuSt.transmitting]
  have hbyte : rtuOnByte s.inputs b (s.answer .none) =
      { s with result := .none, rtu := { s.rtu with last := s.now } } := by
    have e : (s.answer .none).rtu.st = s.rtu.st := rfl
    revert hst
    unfold rtuOnByte
    dsimp only
    rw [e]
    cases s.rtu.st <;> simp [State.now, nowTick, tickModulus]
  exact exec_rtuPoll_eq hf hc hx ht hf ((rtuDrain_byte hrx he _).trans hbyte) hf hsilent hd

end Byte

/-- Settles O39: the timers first, then the byte, state by state. -/
theorem rtuByteRules : Obligations.RtuByteRules := by
  intro s b t15 t35 hf hc h15 h35 hpos hrx he gap r counted starts collides passes
  have past (hle : t35 ≤ gap) := reached_of_le h35 hle
  have opened (hlt : gap < t35) := rtuPollTimers_open (reached_of_lt h35 hlt)
  have begins {ev : List Event} (hx : s.rtu.st ≠ .exception) (n : Nat)
      (ht : rtuPollTimers s.inputs (s.answer .none) = { s with
        result := .none, events := s.events ++ ev, rtu := { s.rtu with st := .idle, bufferLen := n } }) : starts ev :=
    exec_rtuPoll_starts hf hc hrx he hx h15 hpos ev n ht
  have meets {ev : List Event} (hx : s.rtu.st ≠ .exception) (ht : rtuPollTimers s.inputs (s.answer .none) = { s with
      result := .none, events := s.events ++ ev, rtu := { s.rtu with st := .frameReady } }) : collides ev :=
    exec_rtuPoll_collides hf hc hrx he hx h35 ev ht
  have reads {u : State} {d : Nat} (hst : s.rtu.st = .receive) (hlt : gap < t35)
      (hu : rtuReceiveByte b gap { s with result := .none, rtu := r } = u) (huf : u.fault = none)
      (hsilent : u.rtu.st.transmitting = false) (hd : rtuDeadline s.inputs u = d) :
      exec .rtuPoll s = .next (u.answer (.ticks d)) :=
    exec_rtuPoll_eq hf hc (by rw [hst]; nofun) (opened hlt) hf
      ((rtuDrain_byte hrx he _).trans ((rtuOnByte_receive (s := s.answer .none) b hst).trans hu)) huf hsilent hd
  have frame (hst : s.rtu.st = .receive) (hle : t35 ≤ gap) :=
    rtuPollTimers_receive (s := s.answer .none) (past hle) hst
  have hrec (hst : s.rtu.st = .receive) : s.rtu.st ≠ .exception := by rw [hst]; nofun
  refine ⟨fun hst => ?_, fun hst hlt hgap => ?_, fun hst hlt hgap hn => ?_, fun hst hlt hgap hn => ?_,
    fun hst hlt hgap hn hcap => ?_, fun hst hlt hgap hn hcap => ?_, fun hst => ?_, fun hst hlt => ?_, fun hst => ?_,
    fun hst hle => ?_, fun hst hle hm => ?_, fun hst hle hshort => ?_, fun hst hle hlong hcrc => ?_,
    fun hst hle hlong hcrc ha => ?_, fun hst hle hlong hcrc ha hm => ?_⟩
  · refine begins (by rw [hst]; nofun) s.rtu.bufferLen ((rtuPollTimers_idle (s := s.answer .none) hst).trans ?_)
    rw [List.append_nil, ← hst]; rfl
  · exact reads hst hlt (rtuReceiveByte_late h15 hgap) hf rfl
      ((rtuDeadline_stamped (by simp [rtuDump]) rfl).trans (congrArg (Option.getD · 0) h35))
  · exact reads hst hlt (rtuReceiveByte_first h15 hgap hn) hf (by change s.rtu.st.transmitting = false; rw [hst]; rfl)
      (rtuDeadline_receive_stamped hst rfl h15 hpos)
  · exact reads hst hlt (rtuReceiveByte_second h15 hgap hn) hf (by change s.rtu.st.transmitting = false; rw [hst]; rfl)
      (rtuDeadline_receive_stamped hst rfl h15 hpos)
  · exact reads hst hlt (rtuReceiveByte_commit h15 hgap hf hn hcap) hf
      (by change s.rtu.st.transmitting = false; rw [hst]; rfl) (rtuDeadline_receive_stamped hst rfl h15 hpos)
  · exact reads hst hlt (rtuReceiveByte_overflow h15 hgap hn hcap) hf rfl
      ((rtuDeadline_stamped (by simp [rtuDump]) rfl).trans (congrArg (Option.getD · 0) h35))
  · refine meets (by rw [hst]; nofun) ((rtuPollTimers_untimed (s := s.answer .none) ?_).trans ?_)
    · change s.rtu.st.timed = false; rw [hst]; rfl
    · rw [List.append_nil, ← hst]; rfl
  · refine exec_rtuPoll_restamps hf hc hrx he ?_ ?_ (opened hlt) ((rtuDeadline_stamped ?_ rfl).trans
      (congrArg (Option.getD · 0) h35))
    · rintro hx; simp [hx] at hst
    · obtain h | h | h := hst <;> simp [h]
    · obtain h | h | h := hst <;> simp [h]
  · refine exec_rtuPoll_restamps hf hc hrx he (by rw [hst]; nofun) (by simp [hst])
      (rtuPollTimers_untimed (s := s.answer .none) ?_) (rtuDeadline_resting (by simp [hst]))
    change s.rtu.st.timed = false; rw [hst]; rfl
  · obtain hst | hst := hst
    · refine begins (by rw [hst]; nofun) s.rtu.bufferLen ((rtuPollTimers_dump (past hle) hst).trans ?_)
      rw [List.append_nil]; rfl
    · refine begins (by rw [hst]; nofun) 0 ((rtuPollTimers_txWait (past hle) hst).trans ?_)
      rw [List.append_nil]; rfl
  · refine meets (by rw [hst]; nofun) ((rtuPollTimers_collision (past hle) hst hm).trans ?_)
    rw [List.append_nil]; rfl
  · exact begins (hrec hst) 0 ((frame hst hle).trans (rtuFrameEnd_short hshort))
  · exact begins (hrec hst) 0 ((frame hst hle).trans (rtuFrameEnd_crc hlong hcrc))
  · exact begins (hrec hst) 0 ((frame hst hle).trans (rtuFrameEnd_address hlong hcrc ha))
  · exact meets (hrec hst) ((frame hst hle).trans
      ((rtuFrameEnd_valid (s := s.answer .none) hlong hcrc ha).trans (notifyMaster_of_unbound hm)))

end Sys2Proof.Machine
end

section
/-! PROOFS. O42: the frame-ready step at the end of a valid frame (rules R450 to R455), and the decoding of every reply PDU
(rules R460 to R469). -/

namespace Sys2Proof.Machine

/-! ### The registers of a reply -/

/-- The big-endian pairs of `data` (rule R462). -/
def wordsAt (data : List Byte) : List Word16 :=
  (List.range (data.length / 2)).map fun k => be16 (data.getD (2 * k) 0#8) (data.getD (2 * k + 1) 0#8)

theorem wordsAt_cons (h l : Byte) (rest : List Byte) : wordsAt (h :: l :: rest) = be16 h l :: wordsAt rest := by
  have hlen : (h :: l :: rest).length / 2 = rest.length / 2 + 1 := by simp only [List.length_cons]; omega
  rw [wordsAt, hlen, List.range_succ_eq_map, List.map_cons, List.map_map]
  refine congrArg₂ _ rfl (List.map_congr_left fun k _ => ?_)
  have e : 2 * (k + 1) = 2 * k + 1 + 1 := by omega
  simp [e]

/-- Bytes in pairs are registers. -/
theorem wordsOfBytes_of_even : ∀ data : List Byte, data.length % 2 = 0 → wordsOfBytes data = some (wordsAt data)
  | [], _ => rfl
  | [_], h => by simp at h
  | a :: b :: rest, h => by
    have hrest : rest.length % 2 = 0 := by simp only [List.length_cons] at h; omega
    rw [wordsOfBytes, wordsOfBytes_of_even rest hrest, wordsAt_cons]
    rfl

/-! ### The checks on a reply, by its bytes -/

theorem countMatches_iff (fc bc : Byte) (data : List Byte) :
    countMatches (fc :: bc :: data) = true ↔ data.length = bc.toNat := by
  simp [countMatches, pduByte]
  omega

theorem registerCountOk_iff (fc bc : Byte) (data : List Byte) : registerCountOk (fc :: bc :: data) = true ↔
    2 ≤ bc.toNat ∧ bc.toNat % 2 = 0 ∧ data.length = bc.toNat := by
  simp [registerCountOk, countMatches_iff, pduByte]
  tauto

/-- A reply of bits (rule R461). -/
theorem decodeBits_cons (m : Master) (fc bc : Byte) (data : List Byte) : decodeBits m (fc :: bc :: data) =
    if 1 ≤ bc.toNat ∧ data.length = bc.toNat then some (.responseBits fc m.readAddress bc.toNat data) else none := by
  refine ite_congr (propext ?_) (fun _ => rfl) fun _ => rfl
  simp [countMatches_iff, pduByte]
  tauto

/-- A reply of registers (rule R462). -/
theorem decodeRegisters_cons (m : Master) (fc bc : Byte) (data : List Byte) : decodeRegisters m (fc :: bc :: data) =
    if 2 ≤ bc.toNat ∧ bc.toNat % 2 = 0 ∧ data.length = bc.toNat then
      some (.responseRegisters fc m.readAddress (wordsAt data).length (wordsAt data)) else none := by
  refine ite_congr (propext (registerCountOk_iff ..)) (fun h => ?_) fun _ => rfl
  obtain ⟨-, heven, hlen⟩ := h
  exact congrArg _ (wordsOfBytes_of_even data (hlen ▸ heven))

/-- A reply of registers to a request that also writes (rule R467). -/
theorem decodeReadWrite_cons (m : Master) (fc bc : Byte) (data : List Byte) : decodeReadWrite m (fc :: bc :: data) =
    if 2 ≤ bc.toNat ∧ bc.toNat % 2 = 0 ∧ data.length = bc.toNat then
      some (.responseReadWrite m.readAddress (wordsAt data).length (wordsAt data) m.writeAddress m.writeCount)
    else none := by
  refine ite_congr (propext (registerCountOk_iff ..)) (fun h => ?_) fun _ => rfl
  obtain ⟨-, heven, hlen⟩ := h
  exact congrArg _ (wordsOfBytes_of_even data (hlen ▸ heven))

/-- A reply of two words is decoded from exactly four bytes. -/
theorem decode_words {f : List Byte → Option Event} {fc : Byte} {r : Word16 → Word16 → Option Event}
    (hfour : ∀ ah al vh vl, f [fc, ah, al, vh, vl] = r (be16 ah al) (be16 vh vl))
    (hother : ∀ p, p.length ≠ 5 → f p = none) (d : List Byte) : f (fc :: d) =
      match d with
      | [ah, al, vh, vl] => r (be16 ah al) (be16 vh vl)
      | _ => none := by
  split
  next ah al vh vl => exact hfour ..
  next hd =>
    refine hother _ fun hlen => ?_
    obtain ⟨ah, al, vh, vl, rfl⟩ : ∃ a b c e, d = [a, b, c, e] := by
      match d, hlen with
      | [a, b, c, e], _ => exact ⟨a, b, c, e, rfl⟩
    exact hd _ _ _ _ rfl

theorem decodeCoil_cons (fc : Byte) (d : List Byte) : decodeCoil (fc :: d) =
    match d with
    | [ah, al, vh, vl] =>
      if be16 vh vl = 0xFF00#16 ∨ be16 vh vl = 0x0000#16 then
        some (.responseCoil (be16 ah al) (be16 vh vl = 0xFF00#16)) else none
    | _ => none :=
  decode_words (f := decodeCoil)
    (r := fun a v => if v = 0xFF00#16 ∨ v = 0x0000#16 then some (.responseCoil a (v = 0xFF00#16)) else none)
    (fun ah al vh vl => by simp [decodeCoil, pduWord, pduByte, coilValue, beq_eq_decide])
    (fun p hp => by simp [decodeCoil, hp]) d

theorem decodeRegister_cons (fc : Byte) (d : List Byte) : decodeRegister (fc :: d) =
    match d with
    | [ah, al, vh, vl] => some (.responseRegister (be16 ah al) (be16 vh vl))
    | _ => none :=
  decode_words (f := decodeRegister) (r := fun a v => some (.responseRegister a v))
    (fun ah al vh vl => by simp [decodeRegister, pduWord, pduByte])
    (fun p hp => by simp [decodeRegister, hp]) d

theorem decodeCount_cons (m : Master) (fc : Byte) (d : List Byte) : decodeCount m (fc :: d) =
    match d with
    | [ah, al, qh, ql] =>
      if be16 qh ql = m.writeCount then some (.responseCount fc (be16 ah al) (be16 qh ql)) else none
    | _ => none :=
  decode_words (f := decodeCount m) (r := fun a q => if q = m.writeCount then some (.responseCount fc a q) else none)
    (fun ah al vh vl => by simp [decodeCount, pduWord, pduByte])
    (fun p hp => by simp [decodeCount, hp]) d

/-! ### The dispatch (rule R460) -/

section Dispatch

variable (m : Master) {fc : Byte} (d : List Byte)

theorem decodeReply_exception (h : 0x80 ≤ fc.toNat) : decodeReply m (fc :: d) = decodeException (fc :: d) := if_pos h

theorem decodeReply_bits (h : fc = 0x01#8 ∨ fc = 0x02#8) : decodeReply m (fc :: d) = decodeBits m (fc :: d) := by
  obtain rfl | rfl := h <;> rfl

theorem decodeReply_registers (h : fc = 0x03#8 ∨ fc = 0x04#8) :
    decodeReply m (fc :: d) = decodeRegisters m (fc :: d) := by
  obtain rfl | rfl := h <;> rfl

theorem decodeReply_count (h : fc = 0x0F#8 ∨ fc = 0x10#8) : decodeReply m (fc :: d) = decodeCount m (fc :: d) := by
  obtain rfl | rfl := h <;> rfl

/-- Every other function code (rule R469). -/
theorem decodeReply_other (h : fc.toNat < 0x80)
    (hfc : fc.toNat ∉ [0x01, 0x02, 0x03, 0x04, 0x05, 0x06, 0x0F, 0x10, 0x17]) : decodeReply m (fc :: d) = none := by
  have hne (k : Nat) (hk : k ∈ [0x01, 0x02, 0x03, 0x04, 0x05, 0x06, 0x0F, 0x10, 0x17]) : fc ≠ BitVec.ofNat 8 k := by
    rintro rfl
    refine hfc ?_
    fin_cases hk <;> simp
  have hbyte : pduByte (fc :: d) 0 = fc := rfl
  simp [decodeReply, hbyte, Nat.not_le.2 h, hne 0x01 (by simp), hne 0x02 (by simp), hne 0x03 (by simp), hne 0x04 (by simp),
    hne 0x05 (by simp), hne 0x06 (by simp), hne 0x0F (by simp), hne 0x10 (by simp), hne 0x17 (by simp)]

end Dispatch

/-! ### A valid frame ends on the bound framer -/

/-- LF in `rx_cr` ends the frame (rule R312). -/
theorem ascOnChar_lf {env : Inputs} {s : State} (hst : s.asc.st = .rxCr) : ascOnChar env chLf s =
    ascFrameEnd env { s with asc := { s.asc with last := nowTick s.cfg env } } := by
  simp [ascOnChar, ascReceiveChar, hst, chLf, chColon]

/-- A frame that passes the checks of rule R312. -/
theorem ascFrameEnd_valid {env : Inputs} {s : State} (hpend : s.asc.pendValid = true)
    (hlong : s.cfg.minPdu ≤ s.asc.bufferLen) (hlrc : s.asc.lrc + s.asc.pend = 0#8)
    (ha : s.asc.stationAddress = 0#8 ∨ s.asc.frameAddress = s.asc.stationAddress ∨ s.asc.frameAddress = 0#8) :
    ascFrameEnd env s =
      notifyMaster .ascii env ({ s with asc := { s.asc with st := .frameReady } }.emit (.frameReady .ascii)) := by
  have hsum : 0#8 - s.asc.lrc = s.asc.pend := by
    rw [← hlrc]; bv_omega
  rw [ascFrameEnd, if_neg (by simp [hpend, hlong]), if_neg (not_not.2 hsum), if_pos ((addrOk_iff ..).2 ha)]

section Taken

variable {s : State} {p : List Byte} (hf : s.fault = none)
include hf

/-- The RTU framer (rules R221, R450). -/
theorem exec_rtuPoll_taken (hm : s.cfg.master = some .rtu) (h : s.endsFrame .rtu)
    (hp : s.rtu.buf.readRange 0 s.rtu.bufferLen = some p) :
    exec .rtuPoll s = .next { s with
      result := .ticks 0, events := s.events ++ .frameReady .rtu :: (s.frameTaken s.rtu.frameAddress p s.now).1
      mst := (s.frameTaken s.rtu.frameAddress p s.now).2, rtu := { s.rtu with st := .idle, bufferLen := 0 } } := by
  obtain ⟨hc, hst, hrx, he, ⟨t35, h35, hle⟩, hlong, hcrc, ha⟩ := h
  have hready : State.Ready .rtu ({ s with
      result := .none, rtu := { s.rtu with st := .frameReady } }.emit (.frameReady .rtu)) := ⟨hf, hc, rfl⟩
  have htaken := (rtuFrameEnd_valid (env := s.inputs) (s := s.answer .none) hlong hcrc ha).trans
    ((if_pos hm).trans (hready.frameReadyStep_eq (env := s.inputs) hp rfl))
  refine (exec_rtuPoll_eq hf hc (by rw [hst]; nofun)
    ((rtuPollTimers_receive (s := s.answer .none) (reached_of_le h35 hle) hst).trans htaken) hf
    (rtuDrain_nothing hrx he _) hf rfl rfl).trans ?_
  simp only [State.released, State.emit, State.answer, List.append_assoc]
  rfl

/-- The ASCII framer (rules R312, R450). -/
theorem exec_ascPoll_taken (hm : s.cfg.master = some .ascii) (h : s.endsFrame .ascii)
    (hp : s.asc.buf.readRange 0 s.asc.bufferLen = some p) :
    exec .ascPoll s = .next { s with
      result := .ticks 0, events := s.events ++ .frameReady .ascii :: (s.frameTaken s.asc.frameAddress p s.now).1
      mst := (s.frameTaken s.asc.frameAddress p s.now).2
      asc := { s.asc with st := .idle, bufferLen := 0, last := s.now } } := by
  obtain ⟨hst, hrx, he, hlt, hpend, hlong, hlrc, ha⟩ := h
  have hready : State.Ready .ascii ({ s with
      result := .none, asc := { s.asc with last := s.now, st := .frameReady } }.emit (.frameReady .ascii)) := ⟨hf, rfl, rfl⟩
  have hdrain : ascDrain s.inputs s.inputs.rx (s.answer .none) = ascOnChar s.inputs chLf (s.answer .none) := by
    simp [hrx, ascDrain, he, chLf]
  have htaken := (ascOnChar_lf (env := s.inputs) (s := s.answer .none) hst).trans
    ((ascFrameEnd_valid (by exact hpend) (by exact hlong) (by exact hlrc) (by exact ha)).trans
      ((if_pos hm).trans (hready.frameReadyStep_eq (env := s.inputs) hp rfl)))
  refine (exec_ascPoll_eq hf (by rw [hst]; nofun) (ascPollTimers_eq (s := s.answer .none) fun _ => hlt) hf
    (hdrain.trans htaken) hf rfl rfl).trans ?_
  simp only [State.released, State.emit, State.answer, List.append_assoc]
  rfl

end Taken

/-- Nobody waits for a frame, or it has no PDU (rule R451). -/
theorem State.frameTaken_unsolicited {s : State} {a : Byte} {p : List Byte} {now : Nat}
    (h : p = [] ∨ s.mst.st ≠ .waitingForReply) : s.frameTaken a p now = ([.unsolicited], s.mst) := if_pos h

/-- The frame of another station (rule R452). -/
theorem State.frameTaken_stale {s : State} {a : Byte} {p : List Byte} {now : Nat} (hw : s.mst.st = .waitingForReply)
    (ne : p ≠ []) (ha : a ≠ s.mst.slave) : s.frameTaken a p now = ([.stale], { s.mst with stamp := now }) := by
  rw [State.frameTaken, if_neg (by simp [ne, hw]), if_pos ha]

/-- Settles O42: the timers or LF find the frame's end, and `frameTaken` says what the engine makes of it; a reply is
decoded by its function code, its length and its counts. -/
theorem masterFrameReadyStep : Obligations.MasterFrameReadyStep := by
  refine ⟨?_, fun m fc d => ?_⟩
  · intro u s p hf hm h hp taken
    have hlen : s.bufferLen u = 0 ↔ p = [] := by
      rw [← Memory.length_of_readRange _ _ _ _ hp, List.length_eq_zero_iff]
    have htaken (ev : List Event) (m : Master) (e : s.frameTaken (s.frameAddress u) p s.now = (ev, m)) : taken ev m := by
      cases u with
      | rtu =>
        have hexec := exec_rtuPoll_taken hf hm h hp
        rwa [show s.frameTaken s.rtu.frameAddress p s.now = _ from e] at hexec
      | ascii =>
        have hexec := exec_ascPoll_taken hf hm h hp
        rwa [show s.frameTaken s.asc.frameAddress p s.now = _ from e] at hexec
    refine ⟨fun hn => ?_, fun hne hw ha => ?_, fun hne hw ha hd => ?_, fun r hne hw ha hd => ?_⟩
    · exact htaken _ _ (State.frameTaken_unsolicited (hn.imp_left hlen.1))
    · exact htaken _ _ (State.frameTaken_stale hw (mt hlen.2 hne) ha)
    · exact htaken _ _ (ha ▸ State.frameTaken_of_none hw (mt hlen.2 hne) hd _)
    · exact htaken _ _ (ha ▸ State.frameTaken_of_some hw (mt hlen.2 hne) hd _)
  · refine ⟨fun h => ?_, fun h => ?_, fun h => ?_, ?_, ?_, fun h => ?_, ?_, fun h hfc => decodeReply_other m d h hfc⟩
    · rw [decodeReply_exception m d h]
      match d with
      | [] | [code] | _ :: _ :: _ => rfl
    · rw [decodeReply_bits m d h]
      match d with
      | [] => rfl
      | bc :: data => exact decodeBits_cons ..
    · rw [decodeReply_registers m d h]
      match d with
      | [] => rfl
      | bc :: data => exact decodeRegisters_cons ..
    · rintro rfl
      exact decodeCoil_cons 0x05#8 d
    · rintro rfl
      exact decodeRegister_cons 0x06#8 d
    · rw [decodeReply_count m d h]
      exact decodeCount_cons m fc d
    · rintro rfl
      match d with
      | [] => rfl
      | bc :: data => exact decodeReadWrite_cons ..

end Sys2Proof.Machine
end

section
/-! PROOFS. O22, O24, O29, O30, O31: the framers' commands that do not move a byte, each by its branches (rules R205, R207,
R228, R230, R238, R303, R320, R321, R324). -/

namespace Sys2Proof.Machine

/-- A command where no fault stands. -/
theorem next_command {s t : State} {f : State → State} (hf : s.fault = none) (h : f (s.answer .none) = t) :
    (.next (s.command f) : Host.Outcome State Fault Refusal) = .next t :=
  congrArg _ ((State.command_of_ok f hf).trans h)

/-- Settles O24: one register is written. -/
theorem setStationAddressCommands : Obligations.SetStationAddressCommands :=
  fun _ _ hf => ⟨next_command hf rfl, next_command hf rfl⟩

/-- Settles O22: the windows and the ticks that SETUP computes are those of rules R201 to R204, unfolded. -/
theorem setupCommand : Obligations.SetupCommand := by
  intro baud ifdUs icdUs s hf r window ticks
  refine ⟨fun h => next_command hf (if_pos ((setupInvalid_iff ..).2 h)), fun h => ?_⟩
  exact next_command hf (if_neg (mt (setupInvalid_iff ..).1 h))

/-- A framer that BEGIN_SEND finds in `idle` or `frame_ready` (rules R228, R320). -/
theorem State.canBeginSend_rtu (s : State) :
    s.canBeginSend .rtu = true ↔ s.rtu.st = .idle ∨ s.rtu.st = .frameReady := by simp [State.canBeginSend]

theorem State.canBeginSend_asc (s : State) :
    s.canBeginSend .ascii = true ↔ s.asc.st = .idle ∨ s.asc.st = .frameReady := by simp [State.canBeginSend]

/-- Settles O29, by the framer's state and, for RTU, its SETUP. -/
theorem beginSendCommands : Obligations.BeginSendCommands := by
  intro s hf
  refine ⟨fun hc => ?_, fun hc hst => ?_, fun hc hst => ?_, fun hst => ?_, fun hst => ?_⟩
  · exact next_command hf (if_neg (ne_true_of_eq_false hc))
  · exact next_command hf ((if_pos hc).trans (if_pos ((State.canBeginSend_rtu s).2 hst)))
  · exact next_command hf ((if_pos hc).trans (if_neg (mt (State.canBeginSend_rtu s).1 hst)))
  · exact next_command hf (if_pos ((State.canBeginSend_asc s).2 hst))
  · exact next_command hf (if_neg (mt (State.canBeginSend_asc s).1 hst))

theorem RtuSt.abandonable_iff (st : RtuSt) :
    st.abandonable = true ↔ st ∈ [RtuSt.receive, .frameReady, .collision, .queue] := by
  cases st <;> simp [RtuSt.abandonable]

theorem AscSt.abandonable_iff (st : AscSt) : st.abandonable = true ↔
    st ∈ [AscSt.rxAddrHigh, .rxAddrLow, .rxPduHigh, .rxPduLow, .rxCr, .frameReady, .collision, .queue] := by
  cases st <;> simp [AscSt.abandonable]

/-- Settles O30, by whether FINISHED leaves the framer's state. -/
theorem finishedCommands : Obligations.FinishedCommands := by
  intro s hf
  refine ⟨fun hc => ?_, fun hc hst => ?_, fun hc hst => ?_, fun hst => ?_, fun hst => ?_⟩
  · exact next_command hf (if_neg (ne_true_of_eq_false hc))
  · exact next_command hf ((if_pos hc).trans (if_pos ((RtuSt.abandonable_iff _).2 hst)))
  · exact next_command hf ((if_pos hc).trans (if_neg (mt (RtuSt.abandonable_iff _).1 hst)))
  · exact next_command hf (if_pos ((AscSt.abandonable_iff _).2 hst))
  · exact next_command hf (if_neg (mt (AscSt.abandonable_iff _).1 hst))

theorem State.canSend_asc (s : State) : s.canSend .ascii = true ↔ s.asc.st = .queue ∧ 1 ≤ s.asc.bufferLen := by
  simp [State.canSend, State.inQueue, State.bufferLen, Nat.one_le_iff_ne_zero]

/-- SEND of a PDU with a byte that nothing has written (rule R35). -/
theorem framerTransmit_unwritten {s : State} {u : FramerKind} (env : Inputs)
    (h : ∃ i, i < s.bufferLen u ∧ (s.buf u).read i = none) : framerTransmit env u s = s.raise .unwritten := by
  have hread : (s.buf u).readRange 0 (s.bufferLen u) = none := by
    rw [Memory.readRange_eq_none]; simpa using h
  rw [framerTransmit, hread]

/-- Settles O31: SEND checks the state and the length, and then reads the PDU's bytes. -/
theorem sendRefusals : Obligations.SendRefusals := by
  intro s hf
  have unwritten {u : FramerKind} (h : ∃ i, i < (s.answer .none).bufferLen u ∧ ((s.answer .none).buf u).read i = none) :
      (framerTransmit s.inputs u (s.answer .none)).andThen (State.answer (.bool true)) =
        (s.answer .none).raise .unwritten := by
    rw [framerTransmit_unwritten _ h]; rfl
  have nonempty {n : Nat} {P : Nat → Prop} (h : ∃ i, i < n ∧ P i) : 1 ≤ n := by
    obtain ⟨i, hi, -⟩ := h; omega
  refine ⟨fun hc => ?_, fun hc hn => ?_, fun hc hst h => ?_, fun hn => ?_, fun hst h => ?_⟩
  · exact next_command hf (if_neg (ne_true_of_eq_false hc))
  · have hcan : ¬ s.canSend .rtu = true := by
      rw [State.canSend_rtu]
      exact fun ⟨hst, hlen⟩ => hn.elim (absurd hst) (by omega)
    exact next_command hf ((if_pos hc).trans (if_neg hcan))
  · have hcan := (State.canSend_rtu s).2 ⟨hst, nonempty h⟩
    exact next_command hf ((if_pos hc).trans ((if_pos hcan).trans (unwritten (u := .rtu) h)))
  · have hcan : ¬ s.canSend .ascii = true := by
      rw [State.canSend_asc]
      exact fun ⟨hst, hlen⟩ => hn.elim (absurd hst) (by omega)
    exact next_command hf (if_neg hcan)
  · have hcan := (State.canSend_asc s).2 ⟨hst, nonempty h⟩
    exact next_command hf ((if_pos hcan).trans (unwritten (u := .ascii) h))

end Sys2Proof.Machine
end

section
/-! PROOFS. O23, O33, O35: the ASCII framer's SET_TIMEOUT and SEND, and its POLL while it transmits (rules R302, R305,
R307, R314, R316, R317, R321 to R326). -/

namespace Sys2Proof.Machine

/-- Settles O23, by the ticks of the block (rule R10) and by whether the framer is in `exception`. -/
theorem setTimeoutCommand : Obligations.SetTimeoutCommand := by
  intro ms s hf a
  have ticking (hu : s.cfg.usPerTick ≠ 0) {a' : AscFramer}
      (h : (if s.asc.st = .exception then { a with st := .idle, bufferLen := 0, last := s.now } else a) = a') :
      exec (.ascSetTimeout ms) s = .next { s with result := .bool true, asc := a' } :=
    next_command hf ((if_neg hu).trans (congrArg (fun x => State.answer (.bool true) { s with asc := x }) h))
  exact ⟨fun hu => next_command hf (if_pos hu), fun hu hst => ticking hu (if_pos hst),
    fun hu hst => ticking hu (if_neg hst)⟩

section Transmits

variable {env : Inputs} {s : State}

/-- No timeout ends a transmission (rule R306). -/
theorem AscSt.not_timed_of_transmitting {st : AscSt} (h : st.transmitting = true) : ¬ st.timed := by
  revert h
  cases st <;> simp [AscSt.timed, AscSt.receiving, AscSt.transmitting]

theorem ascPollTimers_of_transmitting (h : s.asc.st.transmitting = true) : ascPollTimers env s = s :=
  ascPollTimers_eq fun htimed => absurd htimed (AscSt.not_timed_of_transmitting h)

/-- A framer that transmits drops a character, which restamps it (rules R307, R314). -/
theorem ascOnChar_of_transmitting (c : Byte) (h : s.asc.st.transmitting = true) :
    ascOnChar env c s = { s with asc := { s.asc with last := nowTick s.cfg env } } := by
  revert h
  unfold ascOnChar
  dsimp only
  cases s.asc.st <;> simp [AscSt.transmitting]

/-- What a framer that transmits does with all that it reads (rules R314, R317). -/
theorem ascDrain_of_transmitting : ∀ (cs : List Byte) {s : State}, s.fault = none → s.asc.st.transmitting = true →
    ascDrain env cs s = { s with
      asc := { s.asc with last := if cs = [] then s.asc.last else nowTick s.cfg env }
      events := if env.rxError then s.events ++ [.cause .ascii .rxTransport] else s.events }
  | [], s, _, h => by
    have hrec : s.asc.st.receiving = false := by
      revert h; cases s.asc.st <;> simp [AscSt.receiving, AscSt.transmitting]
    rw [ascDrain, ascReadError_keeps hrec]
    cases env.rxError <;> rfl
  | c :: cs, s, hf, h => by
    rw [ascDrain, ascOnChar_of_transmitting c h, State.andThen_of_ok _ (by exact hf),
      ascDrain_of_transmitting cs (by exact hf) (by exact h)]
    simp

/-- At every character of the ADU, and after the last, the framer transmits (rule R322). -/
theorem transmitting_ascSentAt {len m : Nat} (hm : m ≤ 2 * len + 7) : (ascSentAt len m).1.transmitting = true := by
  obtain hm | rfl : m < 2 * len + 7 ∨ m = 7 + 2 * len := by omega
  · obtain ⟨st, i, ho, e⟩ := exists_ascOffers hm
    rw [e]
    cases ho <;> rfl
  · rw [ascSentAt_end]; rfl

/-- A transmission goes on, or has ended (rules R323, R325, R326). -/
theorem State.ascOffered_st {a : Byte} {p : List Byte} {m : Nat} (hm : m ≤ 2 * p.length + 7) :
    (s.ascOffered m a p).asc.st.transmitting = true ∨ (s.ascOffered m a p).asc.st = .idle := by
  have hsent : (ascSentAt p.length (m + s.inputs.accepted ((asciiAduOf a p).drop m).length)).1.transmitting = true := by
    have hle := accepted_le s.inputs ((asciiAduOf a p).drop m).length
    rw [List.length_drop, length_asciiAduOf] at hle
    exact transmitting_ascSentAt (by rw [List.length_drop, length_asciiAduOf]; omega)
  simp only [State.ascOffered]
  split_ifs
  · exact .inr rfl
  · exact .inl hsent
  · exact .inr rfl
  · exact .inl hsent

/-- While it transmits, a POLL returns 1 (rule R316). -/
theorem ascDeadline_of_transmitting (h : s.asc.st.transmitting = true) : ascDeadline env s = 1 := by
  revert h
  unfold ascDeadline
  cases s.asc.st <;> simp [AscSt.transmitting]

/-- What a POLL that transmits returns: 1, or 0 once the framer is in `idle`. -/
theorem ascDeadline_offered (h : s.asc.st.transmitting = true ∨ s.asc.st = .idle) :
    ascDeadline env s = if s.asc.st = .idle then 0 else 1 := by
  obtain h | h := h
  · rw [ascDeadline_of_transmitting h, if_neg (AscSt.ne_of_transmitting h rfl)]
  · rw [ascDeadline_resting (.inl h), if_pos h]

/-- A POLL by its phases (rule R305): the timers, the drain, the transmit progress, the deadline. -/
theorem exec_ascPoll_of_phases {t u v : State} (hf : s.fault = none) (hx : s.asc.st ≠ .exception)
    (ht : ascPollTimers s.inputs (s.answer .none) = t) (htf : t.fault = none)
    (hu : ascDrain s.inputs s.inputs.rx t = u) (huf : u.fault = none) (hv : ascTransmitPhase s.inputs u = v)
    (hvf : v.fault = none) : exec .ascPoll s = .next (v.answer (.ticks (ascDeadline s.inputs v))) := by
  refine next_command hf ?_
  rw [ascPoll, if_neg (by exact hx), ht, State.andThen_of_ok _ htf, hu, State.andThen_of_ok _ huf, hv,
    State.andThen_of_ok _ hvf]

end Transmits

section Send

variable {s : State} {p : List Byte}

/-- The PDU in the framer's buffer is there to be sent. -/
theorem State.AscHolds.of_buffer (hf : s.fault = none) (hpos : 1 ≤ s.asc.bufferLen)
    (hroom : s.asc.bufferLen ≤ s.cfg.bufferMax) (hp : s.asc.buf.readRange 0 s.asc.bufferLen = some p)
    (hlrc : s.asc.txLrc = lrcOf s.asc.frameAddress p) : s.AscHolds s.asc.frameAddress p := by
  have hlen := Memory.length_of_readRange _ _ _ _ hp
  exact ⟨hf, rfl, hlen.symm, by rw [hlen]; exact hp, hlrc, by omega, by omega⟩

/-- Where the transmission stood and what was returned before do not matter to what is sent. -/
theorem State.ascOffered_from (s : State) (m : Nat) (a : Byte) (p : List Byte) (st : AscSt) (i : Nat) (r : Result) :
    State.ascOffered m a p { s with asc := { s.asc with st := st, txIndex := i }, result := r } =
      (s.ascOffered m a p).answer r := by
  simp only [State.ascOffered]
  split_ifs <;> rfl

/-- SEND of a framer whose PDU is whole (rule R321). -/
theorem framerTransmit_asc (env : Inputs) (hp : s.asc.buf.readRange 0 s.asc.bufferLen = some p) :
    framerTransmit env .ascii s = ascTxProgress env (ascStartSend p s) := by
  have hread : (s.buf .ascii).readRange 0 (s.bufferLen .ascii) = some p := hp
  rw [framerTransmit, hread]

/-- Settles O33: SEND is the transmit progress from the ADU's first character. -/
theorem asciiSendTransmitsTheAdu : Obligations.AsciiSendTransmitsTheAdu := by
  intro s p hf hst hpos hroom hp
  have hholds : (ascStartSend p (s.answer .none)).AscHolds s.asc.frameAddress p :=
    .of_buffer (s := ascStartSend p (s.answer .none)) hf hpos hroom hp rfl
  have hprogress := hholds.ascTxProgress_sent (Nat.zero_le _)
  rw [State.ascSent_zero _ rfl rfl] at hprogress
  have htransmit := (framerTransmit_asc (s := s.answer .none) s.inputs hp).trans hprogress
  have hfrom : State.ascOffered 0 s.asc.frameAddress p (ascStartSend p (s.answer .none)) = _ :=
    State.ascOffered_from { s with asc := { s.asc with
      txLrc := lrcOf s.asc.frameAddress p, txen := true } } 0 s.asc.frameAddress p .txSof 0 .none
  refine next_command hf ((if_pos ((State.canSend_asc s).2 ⟨hst, hpos⟩)).trans ?_)
  rw [show (s.answer .none).inputs = s.inputs from rfl, htransmit,
    State.andThen_of_ok _ ((State.ascOffered_fault ..).trans hholds.fault), hfrom]
  rfl

/-- Settles O35: the timers let a transmission be, the drain drops what it reads, and the progress goes on at character
`m`. -/
theorem asciiPollResumesTheAdu : Obligations.AsciiPollResumesTheAdu := by
  intro s p m hf hpos hroom hp hm hst hidx hlrc t
  have htx : s.asc.st.transmitting = true := by rw [hst]; exact transmitting_ascSentAt hm
  have hdrain : ascDrain s.inputs s.inputs.rx (s.answer .none) = s.ascHeard.answer .none :=
    ascDrain_of_transmitting _ (s := s.answer .none) hf htx
  have hholds : (s.ascHeard.answer .none).AscHolds s.asc.frameAddress p :=
    .of_buffer (s := s.ascHeard.answer .none) hf hpos hroom hp hlrc
  have hsent : (s.ascHeard.answer .none).ascSent p.length m [] = s.ascHeard.answer .none := by
    simp [State.ascSent, State.answer, State.ascHeard, ← hst, ← hidx]
  have hprogress := hholds.ascTxProgress_sent (m := m) (by rw [length_asciiAduOf]; exact hm)
  rw [hsent] at hprogress
  have hphase : ascTransmitPhase s.inputs (s.ascHeard.answer .none) = t.answer .none := by
    rw [ascTransmitPhase, if_pos (by exact htx)]
    exact hprogress.trans (State.ascOffered_from s.ascHeard m s.asc.frameAddress p s.asc.st s.asc.txIndex .none)
  have hrun := exec_ascPoll_of_phases hf (AscSt.ne_of_transmitting htx rfl)
    (ascPollTimers_of_transmitting (by exact htx)) (by exact hf) hdrain (by exact hf) hphase
    ((State.ascOffered_fault ..).trans hf)
  rwa [ascDeadline_offered (s := t.answer .none) (State.ascOffered_st hm)] at hrun

end Send

end Sys2Proof.Machine
end

section
/-! PROOFS. O37: the deadline that an ASCII POLL returns (rules R170, R316). -/

namespace Sys2Proof.Machine

/-! ### The deadline of an ASCII POLL -/

/-- No timeout ends a state at rest (rule R306). -/
theorem AscSt.not_timed_of_resting {st : AscSt} (h : st = .idle ∨ st = .frameReady ∨ st = .queue) : ¬ st.timed := by
  obtain rfl | rfl | rfl := h <;> simp [AscSt.timed, AscSt.receiving]

/-- The loop ends in a state that no timeout ends. -/
theorem not_timed_ascTxLoop (env : Inputs) : ∀ (fuel : Nat) (left : Option Nat) (s : State), ¬ s.asc.st.timed →
    ¬ (ascTxLoop env fuel left s).asc.st.timed
  | 0, _, _, h => h
  | fuel + 1, left, s, h => by
    unfold ascTxLoop
    split
    next ho =>
      split
      · exact h
      · split
        · exact AscSt.not_timed_of_resting (.inl rfl)
        · exact h
        · exact not_timed_ascTxLoop env fuel _ _ (AscSt.not_timed_of_transmitting (ascTxAdvance_transmitting ho))
    next => exact h

/-- So does the transmit progress: the drain ends in `idle` (rule R326). -/
theorem not_timed_ascTxProgress {env : Inputs} {s : State} (h : ¬ s.asc.st.timed) :
    ¬ (ascTxProgress env s).asc.st.timed := by
  refine State.andThen_keeps (P := fun t => ¬ t.asc.st.timed) (not_timed_ascTxLoop env _ _ s h) fun h => ?_
  unfold ascDrainCheck
  split
  · split
    · exact AscSt.not_timed_of_resting (.inl rfl)
    · exact h
  · exact h

section Deadline

variable {env : Inputs} {t : State}

/-- A state that the timeout ends (rule R316). -/
theorem ascDeadline_timed (h : t.asc.st.timed) : ascDeadline env t = t.asc.timeoutTicks - ascElapsed env t := by
  revert h
  unfold ascDeadline
  cases t.asc.st <;> simp [AscSt.timed, AscSt.receiving]

/-- The deadline of an ASCII framer fits in `W` bits (rules R170, R316). -/
theorem ascDeadline_lt (hlt : t.asc.timeoutTicks < tickModulus t.cfg) (hone : 1 < tickModulus t.cfg) :
    ascDeadline env t < tickModulus t.cfg := by
  unfold ascDeadline
  split <;> omega

/-- A framer at the end of a POLL: its timeout, if its state has one, has not elapsed. -/
def AscSettled (env : Inputs) (t : State) : Prop := t.asc.st.timed → ascElapsed env t < t.asc.timeoutTicks

end Deadline

/-- Under the invariant the timeout of a framer that is not in `exception` is a tick count of at least 2 (rule R56). -/
theorem Underway.asc_ticks {env : Inputs} {s : State} (h : Underway env .ascii s) :
    2 ≤ s.asc.timeoutTicks ∧ s.asc.timeoutTicks < tickModulus s.cfg :=
  h.inv.asc.timed (mt h.inv.asc.untimed.2 h.ascLive)

/-- An ASCII POLL under the invariant leaves the framer settled. -/
theorem Underway.ascSettled {env : Inputs} {s : State} (h : Underway env .ascii s) :
    AscSettled env (ascTransmitPhase env (Machine.ascDrain env env.rx (Machine.ascPollTimers env s))) := by
  cases htx : s.asc.st.transmitting with
  | false =>
    have hpos : s.asc.timeoutTicks ≠ 0 := by have := h.asc_ticks; omega
    have hlisten : AscListening env (Machine.ascDrain env env.rx (Machine.ascPollTimers env s)) :=
      AscListening.ascDrain (rx := env.rx) (e := env.rxError) env.rx (AscListening.ascPollTimers hpos h.ascLive htx)
    rw [ascTransmitPhase, hlisten.silent]
    exact hlisten.settled
  | true =>
    rw [ascPollTimers_of_transmitting htx, ascDrain_of_transmitting _ h.fault htx, ascTransmitPhase,
      if_pos (by exact htx)]
    intro htimed
    exact absurd htimed (not_timed_ascTxProgress (AscSt.not_timed_of_transmitting htx))

theorem Underway.ascTransmitPhase {env : Inputs} {s : State} (h : Underway env .ascii s) :
    Underway env .ascii (ascTransmitPhase env s) := iteInduction (fun _ => h.ascTxProgress) fun _ => h

theorem touches_ascTransmitPhase (env : Inputs) (s : State) : Touches .ascii s (ascTransmitPhase env s) :=
  .ite (fun _ => touches_ascTxProgress ..) fun _ => .refl ..

/-- Under the invariant a POLL of an ASCII framer not in `exception` runs to its end, and leaves it settled. -/
theorem State.Inv.exists_ascPoll {s : State} (h : s.Inv) (hf : s.fault = none) (hx : s.asc.st ≠ .exception) :
    ∃ t, exec .ascPoll s = .next (t.answer (.ticks (ascDeadline s.inputs t))) ∧ Underway s.inputs .ascii t ∧
      AscSettled s.inputs t ∧ t.cfg = s.cfg := by
  have hunder : Underway s.inputs .ascii (s.answer .none) :=
    ⟨h.answer _, hf, rfl, by simpa [State.exceptionOut, State.answer] using hx, rfl⟩
  have htimers := hunder.ascPollTimers
  have hdrain := htimers.ascDrain s.inputs.rx
  have hphase := hdrain.ascTransmitPhase
  have htouch : Touches .ascii (s.answer .none) (Machine.ascTransmitPhase s.inputs
      (ascDrain s.inputs s.inputs.rx (ascPollTimers s.inputs (s.answer .none)))) :=
    (touches_ascPollTimers ..).trans ((touches_ascDrain ..).trans (touches_ascTransmitPhase ..))
  exact ⟨_, exec_ascPoll_of_phases hf hx rfl htimers.fault rfl hdrain.fault rfl hphase.fault, hphase, hunder.ascSettled,
    htouch.cfg⟩

/-- Settles O37: the timeout of rule R306 has not elapsed when the deadline is computed. -/
theorem asciiPollAnswersItsDeadline : Obligations.AsciiPollAnswersItsDeadline := by
  intro s h hf
  by_cases hx : s.asc.st = .exception
  · refine ⟨s.answer (.ticks 0), 0, exec_ascPoll_exception hf hx, hf, rfl, Nat.two_pow_pos _, fun _ => rfl, ?_⟩
    simp [State.answer, hx, AscSt.transmitting, AscSt.receiving]
  obtain ⟨t, hexec, ht, hsettled, hcfg⟩ := h.exists_ascPoll hf hx
  obtain ⟨htwo, hlt⟩ := ht.asc_ticks
  refine ⟨_, _, hexec, ht.fault, rfl, ascDeadline_lt hlt (by omega), fun hst => ?_, ascDeadline_of_transmitting,
    fun hst => ?_⟩
  · refine ascDeadline_resting ?_
    simpa [ht.ascLive] using hst
  · have hopen := hsettled hst
    have helapsed : tickDiff t.cfg s.now t.asc.last = ascElapsed s.inputs t := by rw [ascElapsed, hcfg]; rfl
    rw [ascDeadline_timed (t := t) hst]
    simp only [State.answer, helapsed]
    omega

end Sys2Proof.Machine
end

section
/-! PROOFS. O43: one character, of an ASCII framer that does not transmit (rules R305 to R311, R314 to R316). -/

namespace Sys2Proof.Machine

section Rules

variable {env : Inputs} {s : State} {c : Byte}

/-! ### The timeout, state by state (rule R306) -/

/-- A frame in progress is abandoned. -/
theorem ascPollTimers_receiving (hle : s.asc.timeoutTicks ≤ ascElapsed env s) (hst : s.asc.st.receiving = true) :
    ascPollTimers env s = ascDiscard .asciiTimeout s := by
  rw [ascPollTimers, if_pos hle, if_pos hst]

/-- A collision ends, and the frame is ready again. -/
theorem ascPollTimers_collision (hle : s.asc.timeoutTicks ≤ ascElapsed env s) (hst : s.asc.st = .collision)
    (hm : s.cfg.master ≠ some .ascii) : ascPollTimers env s = { s with asc := { s.asc with st := .frameReady } } := by
  rw [ascPollTimers, if_pos hle, if_neg (by rw [hst]; nofun), if_pos hst]
  exact notifyMaster_of_unbound hm

/-! ### `on_char`, state by state -/

/-- Every character that is read restamps the framer (rule R307). -/
def State.ascStamped (env : Inputs) (s : State) : State := { s with asc := { s.asc with last := nowTick s.cfg env } }

/-- `:` starts a frame (rule R309). -/
theorem ascOnChar_idle_colon (hst : s.asc.st = .idle) : ascOnChar env chColon s = ascStartFrame (s.ascStamped env) := by
  simp [ascOnChar, hst, State.ascStamped]

theorem ascOnChar_idle (hst : s.asc.st = .idle) (hc : c ≠ chColon) : ascOnChar env c s = s.ascStamped env := by
  simp [ascOnChar, hst, hc, State.ascStamped]

theorem AscSt.receiving_iff (st : AscSt) : st.receiving = true ↔
    st = .rxAddrHigh ∨ st = .rxAddrLow ∨ st = .rxPduHigh ∨ st = .rxPduLow ∨ st = .rxCr := by
  cases st <;> simp [AscSt.receiving]

/-- `:` inside a frame starts it again (rule R311). -/
theorem ascOnChar_receiving_colon (hst : s.asc.st.receiving = true) :
    ascOnChar env chColon s = ascStartFrame ((s.ascStamped env).emitCause .ascii .sof) := by
  obtain e | e | e | e | e := (AscSt.receiving_iff _).1 hst <;> simp [ascOnChar, State.ascStamped, e]

theorem ascOnChar_receiving (hst : s.asc.st.receiving = true) (hc : c ≠ chColon) :
    ascOnChar env c s = ascReceiveChar env c (s.ascStamped env) := by
  obtain e | e | e | e | e := (AscSt.receiving_iff _).1 hst <;> simp [ascOnChar, State.ascStamped, e, hc]

/-- A character in `frame_ready` is a collision (rule R314). -/
theorem ascOnChar_frameReady (hst : s.asc.st = .frameReady) : ascOnChar env c s =
    State.emitCause .ascii .collision
      { s.ascStamped env with asc := { (s.ascStamped env).asc with st := .collision } } := by
  simp [ascOnChar, hst, State.ascStamped]

theorem ascOnChar_dropped (hst : s.asc.st = .collision ∨ s.asc.st = .queue) :
    ascOnChar env c s = s.ascStamped env := by
  obtain hst | hst := hst <;> simp [ascOnChar, hst, State.ascStamped]

/-! ### A character of a frame (rules R310, R311, R315) -/

section Digit

variable {h : BitVec 4} (hh : hexval c = some h)
include hh

theorem ne_colon_of_hexval : c ≠ chColon := by
  rintro rfl
  have hcolon : hexval chColon = none := by decide
  simp [hcolon] at hh

theorem ascReceiveChar_addrHigh (hst : s.asc.st = .rxAddrHigh) :
    ascReceiveChar env c s = { s with asc := { s.asc with nib := h, st := .rxAddrLow } } := by
  rw [ascReceiveChar, hst, hh]

theorem ascReceiveChar_addrLow (hst : s.asc.st = .rxAddrLow) :
    ascReceiveChar env c s = ascAddress (byteOfNibbles s.asc.nib h) s := by
  rw [ascReceiveChar, hst, hh]

theorem ascReceiveChar_pduHigh (hst : s.asc.st = .rxPduHigh) :
    ascReceiveChar env c s = { s with asc := { s.asc with nib := h, st := .rxPduLow } } := by
  rw [ascReceiveChar, hst, hh]

theorem ascReceiveChar_pduLow (hst : s.asc.st = .rxPduLow) :
    ascReceiveChar env c s = ascDecodedByte (byteOfNibbles s.asc.nib h) s := by
  rw [ascReceiveChar, hst, hh]

end Digit

theorem ascReceiveChar_cr (hst : s.asc.st = .rxPduHigh) :
    ascReceiveChar env chCr s = { s with asc := { s.asc with st := .rxCr } } := by
  rw [ascReceiveChar, hst, show hexval chCr = none by decide]
  exact if_pos rfl

/-- A character that is no hex digit, and no CR where CR may stand (rule R311). -/
theorem ascReceiveChar_malformed (hh : hexval c = none) (hst : s.asc.st = .rxAddrHigh ∨ s.asc.st = .rxAddrLow ∨
    s.asc.st = .rxPduLow ∨ (s.asc.st = .rxPduHigh ∧ c ≠ chCr)) : ascReceiveChar env c s = ascDiscard .hex s := by
  rw [ascReceiveChar, hh]
  obtain hst | hst | hst | ⟨hst, hc⟩ := hst <;> rw [hst]
  exact if_neg hc

/-- A character other than LF behind CR (rule R311). -/
theorem ascReceiveChar_notLf (hst : s.asc.st = .rxCr) (hc : c ≠ chLf) :
    ascReceiveChar env c s = ascDiscard .hex s := by
  rw [ascReceiveChar, hst]
  exact if_neg hc

/-- The first byte behind the address is pending (rule R310). -/
theorem ascDecodedByte_first (v : Byte) (hpend : s.asc.pendValid = false) : ascDecodedByte v s = ascPend v s :=
  if_neg (ne_true_of_eq_false hpend)

/-- A byte more: the pending one is the PDU's next (rule R310). -/
theorem ascDecodedByte_commit (v : Byte) (hf : s.fault = none) (hpend : s.asc.pendValid = true)
    (hcap : s.asc.bufferLen < cap s.cfg) : ascDecodedByte v s = ascPend v { s with asc := { s.asc with
      buf := s.asc.buf.write s.asc.bufferLen s.asc.pend, bufferLen := s.asc.bufferLen + 1
      lrc := s.asc.lrc + s.asc.pend } } := by
  have hroom : s.asc.bufferLen < s.cfg.bufferMax := hcap.trans_le (cap_le s.cfg).1
  rw [ascDecodedByte, if_pos hpend, if_neg hcap.ne, State.bufWrite, if_pos hroom, State.andThen_of_ok _ (by exact hf)]
  rfl

/-- The byte that would be PDU byte CAP + 1 (rule R315). -/
theorem ascDecodedByte_overflow (v : Byte) (hpend : s.asc.pendValid = true) (hcap : s.asc.bufferLen = cap s.cfg) :
    ascDecodedByte v s = ascDiscard .overflow s := by
  rw [ascDecodedByte, if_pos hpend, if_pos hcap]

end Rules

/-! ### The POLL that reads one character -/

/-- The timeout is whole right after a character (rules R307, R316). -/
theorem ascDeadline_stamped {env : Inputs} {s : State} (hst : s.asc.st.timed) (hl : s.asc.last = nowTick s.cfg env) :
    ascDeadline env s = s.asc.timeoutTicks := by
  rw [ascDeadline_timed hst, ascElapsed_of_stamped hl, Nat.sub_zero]

theorem AscSt.not_transmitting_of_timed {st : AscSt} (h : st.timed) : st.transmitting = false := by
  revert h
  cases st <;> simp [AscSt.timed, AscSt.receiving, AscSt.transmitting]

/-- A stream with one character. -/
theorem ascDrain_char {s : State} {c : Byte} (hrx : s.inputs.rx = [c]) (he : s.inputs.rxError = false) (t : State) :
    ascDrain s.inputs s.inputs.rx t = ascOnChar s.inputs c t := by
  simp [hrx, ascDrain, he]

section Poll

variable {s t : State} {c : Byte} {a : AscFramer} {ev evs : List Event} (hf : s.fault = none)
  (hx : s.asc.st ≠ .exception) (hrx : s.inputs.rx = [c]) (he : s.inputs.rxError = false)
  (ht : ascPollTimers s.inputs (s.answer .none) = t) (htf : t.fault = none)
  (hu : ascOnChar s.inputs c t = { s with result := .none, events := evs, asc := a }) (hev : evs = s.events ++ ev)
include hf hx hrx he ht htf hu hev

/-- The character leaves the framer in a state that the timeout ends. -/
theorem exec_ascPoll_waits (hst : a.st.timed) (hl : a.last = s.now) :
    exec .ascPoll s = .next { s with result := .ticks a.timeoutTicks, events := s.events ++ ev, asc := a } := by
  subst hev
  exact exec_ascPoll_eq hf hx ht htf ((ascDrain_char hrx he t).trans hu) hf (AscSt.not_transmitting_of_timed hst)
    (ascDeadline_stamped hst hl)

/-- The character leaves the framer at rest. -/
theorem exec_ascPoll_rests (hst : a.st = .idle ∨ a.st = .frameReady ∨ a.st = .queue) :
    exec .ascPoll s = .next { s with result := .ticks 0, events := s.events ++ ev, asc := a } := by
  subst hev
  have hsilent : a.st.transmitting = false := by obtain h | h | h := hst <;> rw [h] <;> rfl
  exact exec_ascPoll_eq hf hx ht htf ((ascDrain_char hrx he t).trans hu) hf hsilent (ascDeadline_resting hst)

end Poll

/-- Settles O43: the timeout first, then the character, state by state. -/
theorem asciiCharacterRules : Obligations.AsciiCharacterRules := by
  intro s c hf hrx he e w a goes start dropped
  have opened (hlt : e < w) : ascPollTimers s.inputs (s.answer .none) = s.answer .none :=
    ascPollTimers_eq (s := s.answer .none) fun _ => hlt
  have resting (hst : s.asc.st = .idle ∨ s.asc.st = .frameReady ∨ s.asc.st = .queue) :
      ascPollTimers s.inputs (s.answer .none) = s.answer .none :=
    ascPollTimers_eq (s := s.answer .none) fun htimed => absurd htimed (AscSt.not_timed_of_resting hst)
  have expired (hst : s.asc.st.receiving = true) (hle : w ≤ e) := ascPollTimers_receiving (s := s.answer .none) hle hst
  have receives (hst : s.asc.st.receiving = true) (hlt : e < w) (hc : c ≠ 0x3A#8) {a' : AscFramer}
      (hu : ascReceiveChar s.inputs c ((s.answer .none).ascStamped s.inputs) = { s with result := .none, asc := a' })
      (hst' : a'.st.timed) (hl : a'.last = s.now) (hw : a'.timeoutTicks = w) : goes w [] a' :=
    hw ▸ exec_ascPoll_waits hf (AscSt.ne_of_receiving hst) hrx he (opened hlt) hf
      ((ascOnChar_receiving (s := s.answer .none) hst hc).trans hu) (List.append_nil _).symm hst' hl
  have discards (hst : s.asc.st.receiving = true) (hlt : e < w) (hc : c ≠ 0x3A#8) {cause : Cause}
      (hu : ascReceiveChar s.inputs c ((s.answer .none).ascStamped s.inputs) =
        ascDiscard cause ((s.answer .none).ascStamped s.inputs)) : goes 0 [.cause .ascii cause] dropped :=
    exec_ascPoll_rests hf (AscSt.ne_of_receiving hst) hrx he (opened hlt) hf
      ((ascOnChar_receiving (s := s.answer .none) hst hc).trans hu) rfl (.inl rfl)
  have decodes {h : BitVec 4} (hh : hexval c = some h) (hst : s.asc.st = .rxPduLow) :=
    ascReceiveChar_pduLow (env := s.inputs) (s := (s.answer .none).ascStamped s.inputs) hh hst
  refine ⟨?_, fun hst hc => ?_, ?_, fun h hh hlt => ⟨fun hst => ?_, fun hst => ?_, fun hst => ?_, fun hst hp => ?_,
    fun hst hp hcap => ?_, fun hst hp hcap => ?_⟩, ?_, fun hst hlt hh hc => ?_, fun hst hlt hc hc' => ?_, fun hst => ?_,
    fun hst hlt => ?_, fun hst => ?_, ?_, fun hst hle hc => ?_, fun hst hle hm => ?_⟩
  · rintro hst rfl
    exact exec_ascPoll_waits hf (by simp [hst]) hrx he (resting (.inl hst)) hf
      (ascOnChar_idle_colon hst) (List.append_nil _).symm (.inl rfl) rfl
  · exact exec_ascPoll_rests hf (by simp [hst]) hrx he (resting (.inl hst)) hf
      (ascOnChar_idle hst hc) (List.append_nil _).symm (.inl hst)
  · rintro hst hlt rfl
    exact exec_ascPoll_waits hf (AscSt.ne_of_receiving hst) hrx he (opened hlt) hf
      (ascOnChar_receiving_colon hst) rfl (.inl rfl) rfl
  · exact receives (by rw [hst]; rfl) hlt (ne_colon_of_hexval hh) (ascReceiveChar_addrHigh hh hst) (.inl rfl) rfl rfl
  · exact receives (by rw [hst]; rfl) hlt (ne_colon_of_hexval hh) (ascReceiveChar_addrLow hh hst) (.inl rfl) rfl rfl
  · exact receives (by rw [hst]; rfl) hlt (ne_colon_of_hexval hh) (ascReceiveChar_pduHigh hh hst) (.inl rfl) rfl rfl
  · exact receives (by rw [hst]; rfl) hlt (ne_colon_of_hexval hh)
      ((decodes hh hst).trans (ascDecodedByte_first _ hp)) (.inl rfl) rfl rfl
  · exact receives (by rw [hst]; rfl) hlt (ne_colon_of_hexval hh)
      ((decodes hh hst).trans (ascDecodedByte_commit _ hf hp hcap)) (.inl rfl) rfl rfl
  · exact discards (by rw [hst]; rfl) hlt (ne_colon_of_hexval hh)
      ((decodes hh hst).trans (ascDecodedByte_overflow _ hp hcap))
  · rintro hst hlt rfl
    exact receives (by rw [hst]; rfl) hlt (by decide) (ascReceiveChar_cr hst) (.inl rfl) rfl rfl
  · refine discards ?_ hlt hc (ascReceiveChar_malformed hh hst)
    obtain hst | hst | hst | ⟨hst, -⟩ := hst <;> rw [hst] <;> rfl
  · exact discards (by rw [hst]; rfl) hlt hc' (ascReceiveChar_notLf hst hc)
  · exact exec_ascPoll_waits hf (by simp [hst]) hrx he (resting (.inr (.inl hst))) hf (ascOnChar_frameReady hst) rfl
      (.inr rfl) rfl
  · exact exec_ascPoll_waits hf (by simp [hst]) hrx he (opened hlt) hf (ascOnChar_dropped (.inl hst))
      (List.append_nil _).symm (.inr hst) rfl
  · exact exec_ascPoll_rests hf (by simp [hst]) hrx he (resting (.inr (.inr hst))) hf (ascOnChar_dropped (.inr hst))
      (List.append_nil _).symm (.inr (.inr hst))
  · rintro hst hle rfl
    exact exec_ascPoll_waits hf (AscSt.ne_of_receiving hst) hrx he (expired hst hle) hf (ascOnChar_idle_colon rfl) rfl
      (.inl rfl) rfl
  · exact exec_ascPoll_rests hf (AscSt.ne_of_receiving hst) hrx he (expired hst hle) hf (ascOnChar_idle rfl hc) rfl
      (.inl rfl)
  · exact exec_ascPoll_waits hf (by simp [hst]) hrx he (ascPollTimers_collision (s := s.answer .none) hle hst hm) hf
      (ascOnChar_frameReady rfl) rfl (.inr rfl) rfl

end Sys2Proof.Machine
end

section
/-! PROOFS. O44: LF, the checks in the order of rule R606 (e), and the timeout (rules R306, R312, R313). -/

namespace Sys2Proof.Machine

section FrameEnd

variable {env : Inputs} {s : State}

theorem ascFrameEnd_short (h : ¬(s.asc.pendValid = true ∧ s.cfg.minPdu ≤ s.asc.bufferLen)) :
    ascFrameEnd env s = ascDiscard .short s := by
  refine if_pos ?_
  rwa [not_and_or, Bool.not_eq_true, Nat.not_le] at h

section LongEnough

variable (h : s.asc.pendValid = true ∧ s.cfg.minPdu ≤ s.asc.bufferLen)
include h

theorem ascFrameEnd_lrc (hlrc : s.asc.lrc + s.asc.pend ≠ 0#8) : ascFrameEnd env s = ascDiscard .lrc s := by
  have hsum : 0#8 - s.asc.lrc ≠ s.asc.pend := by bv_omega
  rw [ascFrameEnd, if_neg (by simpa using h), if_pos hsum]

theorem ascFrameEnd_address (hlrc : s.asc.lrc + s.asc.pend = 0#8)
    (ha : ¬(s.asc.stationAddress = 0#8 ∨ s.asc.frameAddress = s.asc.stationAddress ∨ s.asc.frameAddress = 0#8)) :
    ascFrameEnd env s = ascDiscard .address s := by
  have hsum : 0#8 - s.asc.lrc = s.asc.pend := by bv_omega
  rw [ascFrameEnd, if_neg (by simpa using h), if_neg (not_not.2 hsum), if_neg (mt (addrOk_iff ..).1 ha)]

end LongEnough
end FrameEnd

/-- Settles O44: at LF the frame ends with the first cause that holds, or it is ready; the timeout ends a frame and a
collision, and before it nothing changes. -/
theorem asciiFrameEnd : Obligations.AsciiFrameEnd := by
  intro s hf he e lf long passes ends discarded
  have reaches {ev : Event} {a : AscFramer} (hlf : lf)
      (hu : ascFrameEnd s.inputs ((s.answer .none).ascStamped s.inputs) =
        { s with result := .none, events := s.events ++ [ev], asc := a })
      (hst : a.st = .idle ∨ a.st = .frameReady ∨ a.st = .queue) : ends ev a := by
    obtain ⟨hcr, hrx, hlt⟩ := hlf
    exact exec_ascPoll_rests hf (by simp [hcr]) hrx he (ascPollTimers_eq (s := s.answer .none) fun _ => hlt) hf
      ((ascOnChar_lf (s := s.answer .none) hcr).trans hu) rfl hst
  have quiet {t : State} {d : Nat} (hst : s.asc.st.timed) (hrx : s.inputs.rx = [])
      (ht : ascPollTimers s.inputs (s.answer .none) = t) (htf : t.fault = none)
      (hsilent : t.asc.st.transmitting = false) (hd : ascDeadline s.inputs t = d) :
      exec .ascPoll s = .next (t.answer (.ticks d)) := by
    refine exec_ascPoll_eq hf ?_ ht htf (ascDrain_nothing hrx he t) htf hsilent hd
    rintro hx; simp [hx, AscSt.timed, AscSt.receiving] at hst
  refine ⟨fun hlf hn => ?_, fun hlf h hlrc => ?_, fun hlf h hlrc ha => ?_, fun hlf h hlrc ha hm => ?_,
    fun hrx hle hst => ?_, fun hrx hle hst hm => ?_, fun hrx hlt hst => ?_⟩
  · exact reaches hlf (ascFrameEnd_short hn) (.inl rfl)
  · exact reaches hlf (ascFrameEnd_lrc h hlrc) (.inl rfl)
  · exact reaches hlf (ascFrameEnd_address h hlrc ha) (.inl rfl)
  · obtain ⟨hpend, hlong⟩ := h
    exact reaches hlf ((ascFrameEnd_valid (s := (s.answer .none).ascStamped s.inputs) hpend hlong hlrc ha).trans
      (notifyMaster_of_unbound hm)) (.inr (.inl rfl))
  · exact quiet (.inl hst) hrx (ascPollTimers_receiving (s := s.answer .none) hle hst) hf rfl rfl
  · exact quiet (.inr hst) hrx (ascPollTimers_collision (s := s.answer .none) hle hst hm) hf rfl rfl
  · exact quiet (t := s.answer .none) hst hrx (ascPollTimers_eq (s := s.answer .none) fun _ => hlt) hf
      (AscSt.not_transmitting_of_timed hst) (ascDeadline_timed hst)

end Sys2Proof.Machine
end

section
/-! PROOFS. O49, O50, O52: the requests of the master engine that are taken, and those that are refused (rules R401,
R402, R410 to R414, R430 to R440). -/

namespace Sys2Proof.Machine

/-! ### The PDUs of the plans -/

theorem length_planWriteCoils_pdu {q : Word16} {bits : List Byte} (a : Word16) (h : bits.length = coilBytes q) :
    (planWriteCoils a q bits).pdu.length = 6 + (q.toNat + 7) / 8 := by
  simp [planWriteCoils, pduWriteCoils, h, coilBytes]
  omega

theorem length_planWriteRegisters_pdu {q : Word16} {values : List Word16} (a : Word16) (h : values.length = q.toNat) :
    (planWriteRegisters a q values).pdu.length = 6 + 2 * q.toNat := by
  simp [planWriteRegisters, pduWriteRegisters, h]
  omega

theorem length_planReadWrite_pdu {wq : Word16} {values : List Word16} (ra rq wa : Word16)
    (h : values.length = wq.toNat) : (planReadWrite ra rq wa wq values).pdu.length = 10 + 2 * wq.toNat := by
  simp [planReadWrite, pduReadWriteRegisters, h]
  omega

/-- A request is the common procedure on a plan: the plan's counts are in their limits where the request's are, and its
PDU has the length that the request's rule gives. -/
theorem exists_plan_of_isRequest (s : State) : ∀ i : Instr, isRequest i = true → i.wf = true →
    ∃ (slave : Byte) (p : RequestPlan), exec i s = requestCommand slave p s ∧ p.countsOk = countsInLimits i ∧
      p.pdu.length = requestLength i
  | .readCoils .., _, _ | .readDiscreteInputs .., _, _ | .readHoldingRegisters .., _, _ | .readInputRegisters .., _, _
  | .writeSingleRegister .., _, _ | .pduReqReadCoils .., _, _ | .pduReqReadDiscreteInputs .., _, _
  | .pduReqReadHoldingRegisters .., _, _ | .pduReqReadInputRegisters .., _, _ | .pduReqWriteSingleRegister .., _, _ =>
      ⟨_, _, rfl, rfl, rfl⟩
  | .writeSingleCoil .., _, h | .pduReqWriteSingleCoil .., _, h => ⟨_, _, checkedRequest_of_ok h .., rfl, rfl⟩
  | .writeMultipleCoils .., _, h =>
      ⟨_, _, checkedRequest_of_ok h .., rfl, length_planWriteCoils_pdu _ (beq_iff_eq.1 h)⟩
  | .writeMultipleRegisters .., _, h =>
      ⟨_, _, checkedRequest_of_ok h .., rfl, length_planWriteRegisters_pdu _ (beq_iff_eq.1 h)⟩
  | .readWriteMultipleRegisters .., _, h =>
      ⟨_, _, checkedRequest_of_ok h .., (Bool.and_assoc ..).symm, length_planReadWrite_pdu _ _ _ (beq_iff_eq.1 h)⟩
  | .pduReqWriteMultipleCoils _ q _ d, _, h => by
      have hlen : d.length = coilBytes q := by simp [Instr.wf] at h; omega
      exact ⟨_, _, checkedRequest_of_ok h .., rfl, length_planWriteCoils_pdu _ hlen⟩
  | .pduReqWriteMultipleRegisters _ q _ values, _, h => by
      have hlen : values.length = q.toNat := by simp [Instr.wf] at h; omega
      exact ⟨_, _, checkedRequest_of_ok h .., rfl, length_planWriteRegisters_pdu _ hlen⟩
  | .pduReqReadWriteMultipleRegisters _ _ _ wq _ values, _, h => by
      have hlen : values.length = wq.toNat := by simp [Instr.wf] at h; omega
      exact ⟨_, _, checkedRequest_of_ok h .., (Bool.and_assoc ..).symm, length_planReadWrite_pdu _ _ _ hlen⟩

/-! ### Requests that are taken -/

/-- A request command that is a plan which the master engine takes. -/
theorem exec_of_takes {u : FramerKind} {i : Instr} {s : State} {slave : Byte} {p : RequestPlan} {len : Nat}
    (ht : s.takesRequest u len) (hpos : 1 ≤ len) (hlen : p.pdu.length = len) (hc : p.countsOk = true)
    (he : exec i s = requestCommand slave p s) :
    exec i s = .next (s.requested u slave p.pdu p.readAddress p.writeAddress p.writeCount) :=
  he.trans (requestCommand_of_takes (hlen.symm ▸ ht) hc (hlen.symm ▸ hpos))

/-- Settles O49: each read request is the plan of its function code, which the master engine takes. -/
theorem readRequestsAreSent : Obligations.ReadRequestsAreSent := by
  intro u slave addr count s ht pdu sent
  have taken {i : Instr} {fc : Byte} {limit : Nat} (hpos : 1 ≤ count.toNat) (hle : count.toNat ≤ limit)
      (he : exec i s = requestCommand slave (planRead fc limit addr count) s) : exec i s = .next (sent fc) :=
    exec_of_takes ht (by decide) rfl ((countOk_iff ..).2 ⟨hpos, hle⟩) he
  exact ⟨fun hpos hle => ⟨taken hpos hle rfl, taken hpos hle rfl⟩,
    fun hpos hle => ⟨taken hpos hle rfl, taken hpos hle rfl⟩⟩

/-- Settles O50: each write request is a plan which the master engine takes, and the plan's PDU is written out byte by
byte. -/
theorem writeRequestsAreSent : Obligations.WriteRequestsAreSent := by
  intro u slave addr count raddr rcount s wide n
  have hwide (values : List Word16) : values.flatMap wide = bytesOfWords values := (bytesOfWords_eq_flatMap values).symm
  refine ⟨fun ht => ⟨?coilOn, ?coilOff, ?register⟩, fun bits hlen hpos hle ht => ?coils,
    fun values hlen hpos hle ht => ?registers, fun values hlen hpos hle hrpos hrle ht => ?readWrite⟩
  case coilOn => exact exec_of_takes (p := planWriteSingle 0x05#8 addr 0xFF00#16) ht (by decide) rfl rfl rfl
  case coilOff => exact exec_of_takes (p := planWriteSingle 0x05#8 addr 0x0000#16) ht (by decide) rfl rfl rfl
  case register => exact exec_of_takes (p := planWriteSingle 0x06#8 addr count) ht (by decide) rfl rfl rfl
  case coils =>
    exact exec_of_takes (p := planWriteCoils addr count bits) ht (by omega)
      (length_planWriteCoils_pdu addr hlen) ((countOk_iff ..).2 ⟨hpos, hle⟩)
      (checkedRequest_of_ok (beq_iff_eq.2 hlen) ..)
  case registers =>
    rw [hwide]
    exact exec_of_takes (p := planWriteRegisters addr count values) ht (by omega)
      (length_planWriteRegisters_pdu addr hlen) ((countOk_iff ..).2 ⟨hpos, hle⟩)
      (checkedRequest_of_ok (beq_iff_eq.2 hlen) ..)
  case readWrite =>
    rw [hwide]
    exact exec_of_takes (p := planReadWrite raddr rcount addr count values) ht (by omega)
      (length_planReadWrite_pdu raddr rcount addr hlen)
      (Bool.and_eq_true_iff.2 ⟨(countOk_iff ..).2 ⟨hrpos, hrle⟩, (countOk_iff ..).2 ⟨hpos, hle⟩⟩)
      (checkedRequest_of_ok (beq_iff_eq.2 hlen) ..)

/-! ### Requests that are refused -/

section Refused

variable {env : Inputs} {s : State} {u : FramerKind} {slave : Byte} {p : RequestPlan} (hm : s.cfg.master = some u)
include hm

/-- Checks (a) to (c) of rule R411. -/
theorem masterRequest_of_unfit (h : s.mst.st ≠ .idle ∨ p.countsOk = false ∨ cap s.cfg < p.pdu.length) :
    masterRequest env slave p s = s.answer (.bool false) := by
  obtain hst | hc | hcap := h
  · simp [masterRequest, hm, hst]
  · simp [masterRequest, hm, hc]
  · simp [masterRequest, hm, hcap]

variable (hst : s.mst.st = .idle) (hc : p.countsOk = true) (hcap : p.pdu.length ≤ cap s.cfg)
include hst hc hcap

/-- Check (d) of rule R411 on a framer without SETUP (rule R401). -/
theorem masterRequest_of_unconfigured (h : s.configured u = false) :
    masterRequest env slave p s = s.raise .notConfigured := by
  simp [masterRequest, hm, hst, hc, Nat.not_lt.2 hcap, h]

/-- Check (d) of rule R411 on a busy framer. -/
theorem masterRequest_of_busy (hconf : s.configured u = true) (h : s.canBeginSend u = false) :
    masterRequest env slave p s = s.answer (.bool false) := by
  simp [masterRequest, hm, hst, hc, Nat.not_lt.2 hcap, hconf, h]

end Refused

theorem State.canBeginSend_eq_false_of_not_free {s : State} {u : FramerKind} (h : ¬ s.free u) :
    s.canBeginSend u = false := by
  cases u <;> simpa [State.canBeginSend, State.free] using h

/-- Settles O52: a request is the common procedure on a plan (`exists_plan_of_isRequest`), and the first check that
fails ends it. -/
theorem requestsAreRefusedWithoutEffect : Obligations.RequestsAreRefusedWithoutEffect := by
  intro u i s hi hwf hf hm
  obtain ⟨slave, p, he, hcounts, hlen⟩ := exists_plan_of_isRequest s i hi hwf
  rw [he, ← hcounts, ← hlen]
  refine ⟨fun h => ?_, fun hst hc hcap hconf hfree => ?_, fun hst hc hcap hu hconf => ?_⟩
  · exact next_command hf (masterRequest_of_unfit (s := s.answer .none) hm h)
  · exact next_command hf (masterRequest_of_busy (s := s.answer .none) hm hst hc hcap (by cases u <;> exact hconf)
      (State.canBeginSend_eq_false_of_not_free (by cases u <;> exact hfree)))
  · subst hu
    exact next_command hf (masterRequest_of_unconfigured (s := s.answer .none) hm hst hc hcap hconf)

end Sys2Proof.Machine
end

section
/-! PROOFS. O54, O55: the timers of M_POLL (rules R170, R470 to R473). -/

namespace Sys2Proof.Machine

/-! ### The elapsed time at a later tick -/

/-- The elapsed time grows with the clock, as long as it fits in `W` bits (rules R12, R471). -/
theorem tickDiff_add {c : Config} {a b k : Nat} (h : tickDiff c a b + k < tickModulus c) :
    tickDiff c (a + k) b = tickDiff c a b + k := by
  have hmod : b + tickDiff c (a + k) b ≡ b + (tickDiff c a b + k) [MOD tickModulus c] :=
    calc b + tickDiff c (a + k) b
        ≡ a + k [MOD tickModulus c] := add_tickDiff_modEq c _ b
      _ ≡ b + tickDiff c a b + k [MOD tickModulus c] := (add_tickDiff_modEq c a b).symm.add_right k
      _ = b + (tickDiff c a b + k) := Nat.add_assoc ..
  exact (hmod.add_left_cancel' b).eq_of_lt_of_lt (tickDiff_lt_modulus ..) h

/-- The clock shows a tick, so its difference is that of the raw input. -/
theorem tickDiff_now (s : State) (b : Nat) : tickDiff s.cfg s.now b = tickDiff s.cfg s.inputs.now b := by
  simp [tickDiff, State.now, tickModulus]

/-- The same state after an answer, with the clock at `n`. -/
def State.answeredAt (r : Result) (n : Nat) (s : State) : State :=
  { s with result := r, inputs := { s.inputs with now := n } }

/-- The ticks since the stamp of the master engine (rule R470). -/
def State.masterElapsed (s : State) : Nat := tickDiff s.cfg s.now s.mst.stamp

theorem State.masterElapsed_later {s : State} {k : Nat} (r : Result)
    (h : s.masterElapsed + k < 2 ^ s.cfg.tickWidth) :
    (s.answeredAt r (s.inputs.now + k)).masterElapsed = s.masterElapsed + k := by
  simp only [masterElapsed, tickDiff_now] at h ⊢
  exact tickDiff_add h

/-! ### M_POLL -/

/-- M_POLL where no fault stands and the block has a master engine. -/
theorem exec_mPoll_eq {s t : State} (hf : s.fault = none) (hm : s.cfg.master ≠ none)
    (h : masterPoll s.inputs (s.answer .none) = t) : exec .mPoll s = .next t := by
  obtain ⟨u, hu⟩ := Option.ne_none_iff_exists'.1 hm
  exact congrArg _ ((State.masterCommand_of_ok _ hf hu).trans h)

section Poll

variable {env : Inputs} {s : State}

/-- The response timeout has passed (rule R470). -/
theorem masterPoll_timeout (hst : s.mst.st = .waitingForReply)
    (h : s.mst.rtTicks < tickDiff s.cfg (nowTick s.cfg env) s.mst.stamp) :
    masterPoll env s = State.answerTicks 0 (State.setMstSt (verdictSt env) ((s.emit .timeout).drawVerdict env)) := by
  simp only [masterPoll, hst, if_pos h]

/-- It has not: it passes one tick after its last (rules R470, R472). -/
theorem masterPoll_waiting (hst : s.mst.st = .waitingForReply)
    (h : tickDiff s.cfg (nowTick s.cfg env) s.mst.stamp ≤ s.mst.rtTicks) :
    masterPoll env s =
      State.answerTicks (s.mst.rtTicks - tickDiff s.cfg (nowTick s.cfg env) s.mst.stamp + 1) s := by
  simp only [masterPoll, hst, if_neg h.not_gt]

/-- The turnaround delay is over (rule R470). -/
theorem masterPoll_turnaroundDone (hst : s.mst.st = .waitingTurnaroundReply)
    (h : s.mst.taTicks ≤ tickDiff s.cfg (nowTick s.cfg env) s.mst.stamp) :
    masterPoll env s = State.answerTicks 0 (State.setMstSt .idle (s.emit .turnaroundDone)) := by
  simp only [masterPoll, hst, if_pos h]

/-- It is not (rules R470, R473). -/
theorem masterPoll_turnaround (hst : s.mst.st = .waitingTurnaroundReply)
    (h : tickDiff s.cfg (nowTick s.cfg env) s.mst.stamp < s.mst.taTicks) :
    masterPoll env s =
      State.answerTicks (s.mst.taTicks - tickDiff s.cfg (nowTick s.cfg env) s.mst.stamp) s := by
  simp only [masterPoll, hst, if_neg h.not_ge]

/-- Nothing is pending (rule R470). -/
theorem masterPoll_resting (hst : s.mst.st = .idle ∨ s.mst.st = .processingError) :
    masterPoll env s = State.answerTicks 0 s := by
  obtain hst | hst := hst <;> simp only [masterPoll, hst]

end Poll

theorem State.answerTicks_zero (s : State) : s.answerTicks 0 = s.answer (.ticks 0) := by
  rw [answerTicks, Nat.zero_mod]

/-- Settles O54: each state of the engine has its branch of rule R470, whose condition compares the elapsed ticks with
the threshold of that state. -/
theorem masterPollCommand : Obligations.MasterPollCommand := by
  intro s hf hm e ticks
  refine ⟨fun hst h => ?_, fun hst h => ?_, fun hst h => ?_, fun hst h => ?_, fun hst => ?_⟩ <;>
    apply exec_mPoll_eq hf hm
  · rw [masterPoll_timeout (s := s.answer .none) hst h, State.answerTicks_zero]
    simp [State.answer, State.setMstSt, State.drawVerdict, State.emit, verdictSt]
  · exact masterPoll_waiting (s := s.answer .none) hst h
  · rw [masterPoll_turnaroundDone (s := s.answer .none) hst h, State.answerTicks_zero]
    rfl
  · exact masterPoll_turnaround (s := s.answer .none) hst h
  · rw [masterPoll_resting (s := s.answer .none) hst, State.answerTicks_zero]
    rfl

/-! ### The deadline of M_POLL -/

section Deadline

variable {s t : State} {d : Nat} (hf : s.fault = none) (hm : s.cfg.master ≠ none)
  (hexec : exec .mPoll s = .next t) (hres : t.result = .ticks d) (hd : 0 < d)
include hf hm hexec hres hd

/-- A positive answer while a reply is awaited is the number of ticks after which the timeout is passed (rule R472). -/
theorem exec_mPoll_waiting_pos (hrt : s.mst.rtTicks < 2 ^ s.cfg.tickWidth - 1) (hst : s.mst.st = .waitingForReply) :
    t = s.answer (.ticks d) ∧ s.masterElapsed + d = s.mst.rtTicks + 1 := by
  obtain ⟨htimeout, hwaiting, -⟩ := masterPollCommand s hf hm
  obtain hlt | hle := lt_or_ge s.mst.rtTicks s.masterElapsed
  · cases hexec.symm.trans (htimeout hst hlt)
    cases hres
    exact absurd hd (Nat.lt_irrefl 0)
  · cases hexec.symm.trans (hwaiting hst hle)
    have hdeq := Result.ticks.inj hres
    rw [← State.masterElapsed, Nat.mod_eq_of_lt (by omega)] at hdeq
    exact ⟨congrArg (State.answer · s) hres, by omega⟩

/-- A positive answer during a turnaround is the number of ticks to its end (rule R473). -/
theorem exec_mPoll_turnaround_pos (hta : s.mst.taTicks < 2 ^ s.cfg.tickWidth)
    (hst : s.mst.st = .waitingTurnaroundReply) :
    t = s.answer (.ticks d) ∧ s.masterElapsed + d = s.mst.taTicks := by
  obtain ⟨-, -, hdone, hturnaround, -⟩ := masterPollCommand s hf hm
  obtain hle | hlt := le_or_gt s.mst.taTicks s.masterElapsed
  · cases hexec.symm.trans (hdone hst hle)
    cases hres
    exact absurd hd (Nat.lt_irrefl 0)
  · cases hexec.symm.trans (hturnaround hst hlt)
    have hdeq := Result.ticks.inj hres
    rw [← State.masterElapsed, Nat.mod_eq_of_lt (by omega)] at hdeq
    exact ⟨congrArg (State.answer · s) hres, by omega⟩

end Deadline

/-- Settles O55: the elapsed time grows with the clock up to the threshold, so rule R470 finds the transition exactly
when the returned ticks have passed. -/
theorem masterDeadlineIsExact : Obligations.MasterDeadlineIsExact := by
  intro s t d hf hm hrt hta hexec hres hd later
  have hpoll (n : Nat) := masterPollCommand (s.answeredAt (.ticks d) n) hf hm
  refine ⟨fun hst => ?_, fun hst => ?_⟩
  · obtain ⟨rfl, hsum⟩ := exec_mPoll_waiting_pos hf hm hexec hres hd hrt hst
    have hlater (k : Nat) (hk : k ≤ d) := State.masterElapsed_later (s := s) (k := k) (.ticks d) (by omega)
    refine ⟨?_, fun k hk => ?_⟩
    · obtain ⟨htimeout, -⟩ := hpoll (s.inputs.now + d)
      have hpast : s.mst.rtTicks < s.masterElapsed + d := by omega
      exact ⟨_, htimeout hst (hpast.trans_eq (hlater d le_rfl).symm), rfl⟩
    · obtain ⟨-, hwaiting, -⟩ := hpoll (s.inputs.now + k)
      have hleft : s.masterElapsed + k ≤ s.mst.rtTicks := by omega
      exact ⟨_, hwaiting hst ((hlater k hk.le).trans_le hleft), rfl, rfl⟩
  · obtain ⟨rfl, hsum⟩ := exec_mPoll_turnaround_pos hf hm hexec hres hd hta hst
    have hlater (k : Nat) (hk : k ≤ d) := State.masterElapsed_later (s := s) (k := k) (.ticks d) (by omega)
    refine ⟨?_, fun k hk => ?_⟩
    · obtain ⟨-, -, hdone, -⟩ := hpoll (s.inputs.now + d)
      exact ⟨_, hdone hst (hsum.ge.trans_eq (hlater d le_rfl).symm), rfl, rfl⟩
    · obtain ⟨-, -, -, hturnaround, -⟩ := hpoll (s.inputs.now + k)
      have hleft : s.masterElapsed + k < s.mst.taTicks := by omega
      exact ⟨_, hturnaround hst ((hlater k hk.le).trans_lt hleft), rfl, rfl⟩

end Sys2Proof.Machine
end

section
/-! PROOFS. The faulted state (rules R64, R630). -/

namespace Sys2Proof.Machine

/-- Every instruction is a command: its effect stands under the check for a fault (rule R630). -/
theorem exists_exec_eq_command (i : Instr) (s : State) : ∃ f, exec i s = .next (s.command f) := by
  cases i <;> exact ⟨_, rfl⟩

/-- In the faulted state no instruction has an effect. -/
theorem exec_of_fault (i : Instr) {s : State} {f : Fault} (h : s.fault = some f) : exec i s = .next s := by
  obtain ⟨body, e⟩ := exists_exec_eq_command i s
  rw [e, State.command_of_fault body h]

/-- In the faulted state a message that its port's decoder refuses has no effect. -/
theorem undecoded_of_fault (p : Port) (m : List Byte) {s : State} {f : Fault} (h : s.fault = some f) :
    undecoded p m s = s := State.command_of_fault _ h

/-- In the faulted state a step takes the next message up, and nothing else. -/
theorem step_of_fault {s : State} {r : Request} {rest : List Request} {f : Fault} (h : s.fault = some f)
    (hp : s.pending = r :: rest) : step s = .next (s.begin r rest) := by
  cases hd : decode r.port r.message with
  | some i => rw [step_of_decode hp hd, exec_of_fault i (s := s.begin r rest) h]
  | none => rw [step_of_decode_eq_none hp hd, undecoded_of_fault _ _ (s := s.begin r rest) h]

/-- Settles O7: every instruction is a command, and so is the refusal of a message; a command does nothing in the faulted
state. -/
theorem faultIsAbsorbing : Obligations.FaultIsAbsorbing := by
  refine ⟨fun i s h => ?_, fun s h => ?_⟩ <;> obtain ⟨f, hf⟩ := Option.ne_none_iff_exists'.1 h
  · exact exec_of_fault i hf
  · cases hp : s.pending with
    | nil => exact ⟨s.inputs, s.pending, s.result, step_of_no_message hp⟩
    | cons r rest => exact ⟨r.inputs, rest, .none, step_of_fault hf hp⟩

end Sys2Proof.Machine
end

section
/-! PROOFS. What the command decoder refuses (rules R170, R171, R631). -/

namespace Sys2Proof

/-! ### Opcodes -/

/-- An opcode above the framers' (rule R170). -/
theorem decodeFramer_of_foreign_opcode (u : FramerKind) {op : Byte} (args : List Byte) (h : 0x0C ≤ op.toNat) :
    decodeFramer u op args = none := by
  have ne {k : Byte} (hk : k.toNat < 0x0C) : op ≠ k := by rintro rfl; omega
  simp (disch := decide) only [decodeFramer, ne, if_false]

/-- The opcodes of the master engine (rule R170). -/
def masterOpcodes : List Nat :=
  [0x20, 0x21, 0x22, 0x23, 0x24, 0x25, 0x31, 0x32, 0x33, 0x34, 0x35, 0x36, 0x3F, 0x40, 0x47]

theorem decodeMaster_of_foreign_opcode {op : Byte} (args : List Byte) (h : op.toNat ∉ masterOpcodes) :
    decodeMaster op args = none := by
  have ne {k : Byte} (hk : k.toNat ∈ masterOpcodes) : op ≠ k := by rintro rfl; exact h hk
  simp (disch := decide) only [decodeMaster, ne, if_false]

/-! ### Arrays -/

/-- The register array of a write request that decodes is as long as its count says. -/
theorem length_of_operandsRegisters {s ah al ch cl : Byte} {d : List Byte} {i : Instr}
    (h : operandsRegisters (s :: ah :: al :: ch :: cl :: d) = some i) : d.length = 2 * (be16 ch cl).toNat := by
  obtain ⟨_, _, c, values, hn, hargs, -⟩ := operandsRegisters_eq_some.1 h
  simp only [List.cons_append, List.nil_append, List.cons.injEq] at hargs
  obtain ⟨-, -, -, rfl, rfl, rfl⟩ := hargs
  simp [hn]

/-- The register array of a read/write request that decodes is as long as its write count says. -/
theorem length_of_operandsReadWrite {s rah ral rch rcl wah wal wch wcl : Byte} {d : List Byte} {i : Instr}
    (h : operandsReadWrite (s :: rah :: ral :: rch :: rcl :: wah :: wal :: wch :: wcl :: d) = some i) :
    d.length = 2 * (be16 wch wcl).toNat := by
  obtain ⟨_, _, _, _, wc, values, hn, hargs, -⟩ := operandsReadWrite_eq_some.1 h
  simp only [List.cons_append, List.nil_append, List.cons.injEq] at hargs
  obtain ⟨-, -, -, -, -, -, -, rfl, rfl, rfl⟩ := hargs
  simp [hn]

end Sys2Proof

namespace Sys2Proof.Machine

/-! ### A refusal is BAD_COMMAND -/

/-- The state after a BAD_COMMAND (rules R630, R631). -/
def State.badCommand (s : State) : State := { s with result := .none, fault := some .badCommand }

/-- A message of the host's that does not decode. -/
theorem undecoded_of_host {s : State} (hf : s.fault = none) {p : Port} (hp : p = .rtu ∨ p = .asc ∨ p = .mst)
    (m : List Byte) : undecoded p m s = s.badCommand := by
  obtain rfl | rfl | rfl := hp <;> exact State.command_of_ok _ hf

/-! ### Without a master engine -/

section NoEngine

variable {s : State} (hf : s.fault = none) (hm : s.cfg.master = none)
include hm

theorem masterRequest_of_no_engine (env : Inputs) (slave : Byte) (p : RequestPlan) :
    masterRequest env slave p s = s.raise .badCommand := by rw [masterRequest, hm]

include hf

theorem next_masterCommand_of_no_engine (f : State → State) :
    (.next (s.masterCommand f) : Host.Outcome State Fault Refusal) = .next s.badCommand :=
  congrArg _ (State.masterCommand_of_none f hf hm)

theorem requestCommand_of_no_engine (slave : Byte) (p : RequestPlan) :
    requestCommand slave p s = .next s.badCommand :=
  next_command hf (masterRequest_of_no_engine (s := s.answer .none) hm ..)

/-- A request whose operands have no meaning is BAD_COMMAND for that already. -/
theorem checkedRequest_of_no_engine (ok : Bool) (slave : Byte) (p : RequestPlan) :
    checkedRequest ok slave p s = .next s.badCommand := by
  cases ok with
  | true => exact requestCommand_of_no_engine hf hm slave p
  | false => exact next_command hf rfl

/-- A master command where the block has no master engine (rule R631). -/
theorem exec_of_no_engine : ∀ i : Instr, portOf i = .mst → exec i s = .next s.badCommand
  | .mReset, _ | .mSetResponseTimeout _, _ | .mSetTurnaround _, _ | .mPoll, _ | .mAckError, _ | .mReadStatus, _ =>
      next_masterCommand_of_no_engine hf hm _
  | .readCoils .., _ | .readDiscreteInputs .., _ | .readHoldingRegisters .., _ | .readInputRegisters .., _
  | .writeSingleRegister .., _ => requestCommand_of_no_engine hf hm ..
  | .writeSingleCoil .., _ | .writeMultipleCoils .., _ | .writeMultipleRegisters .., _
  | .readWriteMultipleRegisters .., _ => checkedRequest_of_no_engine hf hm ..

end NoEngine

/-- Settles O4: no branch of a decoder has a foreign opcode, the operand forms check the coil value and the lengths, and a
refusal raises BAD_COMMAND from the state that has taken the message up. -/
theorem commandDecoderRefusals : Obligations.CommandDecoderRefusals := by
  refine ⟨fun u op args h => ?framer, fun op args h => decodeMaster_of_foreign_opcode args h,
    fun args => ⟨rfl, rfl⟩, fun s ah al v h0 h1 => if_neg (not_or.2 ⟨h0, h1⟩),
    fun s ah al ch cl d => ⟨fun h => if_neg h.ne, fun h => ?registers⟩,
    fun s rah ral rch rcl wah wal wch wcl d h => ?readWrite,
    fun s r rest hf hp hport hd => ?refusal, fun i s hf hm => exec_of_no_engine hf hm i⟩
  case framer => cases u <;> exact decodeFramer_of_foreign_opcode _ args h
  case registers => exact Option.eq_none_iff_forall_ne_some.2 fun _ hi => h.ne (length_of_operandsRegisters hi)
  case readWrite => exact Option.eq_none_iff_forall_ne_some.2 fun _ hi => h.ne (length_of_operandsReadWrite hi)
  case refusal =>
    rw [step_of_decode_eq_none hp hd, undecoded_of_host (s := s.begin r rest) hf hport]
    rfl

end Sys2Proof.Machine
end

section
/-! PROOFS. O8, O11, O12, O13: power-on, the reset commands, and the commands of the master engine that send nothing
(rules R66, R184, R420 to R422, R474, R650 to R653). -/

namespace Sys2Proof.Machine

/-! ### The ticks that a reset computes -/

theorem AscFramer.reset_timeoutTicks_of_no_ticks {c : Config} (hu : c.usPerTick = 0) (t : Nat) (b : Memory) :
    (AscFramer.reset c t b).timeoutTicks = 0 := if_pos hu

theorem AscFramer.reset_timeoutTicks_of_ticks {c : Config} (hu : c.usPerTick ≠ 0) (t : Nat) (b : Memory) :
    (AscFramer.reset c t b).timeoutTicks = Machine.timeoutTicks c 1000 := if_neg hu

/-- Where UPT is 0 every timeout of the master engine is the longest one (rule R422). -/
theorem msToTicks_of_no_ticks {c : Config} (hu : c.usPerTick = 0) (ms : Nat) : msToTicks c ms = tickModulus c - 1 :=
  if_pos hu

theorem msToTicks_of_ticks {c : Config} (hu : c.usPerTick ≠ 0) (ms : Nat) :
    msToTicks c ms = satTicks c (ceilDiv (ms * 1000) c.usPerTick) := if_neg hu

/-- Settles O8: each unit is as its reset leaves it, with the default timeouts in ticks. -/
theorem powerOnState : Obligations.PowerOnState := fun _ _ =>
  ⟨rfl, rfl, fun hu => AscFramer.reset_timeoutTicks_of_no_ticks hu .., fun hu =>
    ⟨AscFramer.reset_timeoutTicks_of_ticks hu .., msToTicks_of_ticks hu 200, msToTicks_of_ticks hu 1000⟩,
    fun hu => ⟨msToTicks_of_no_ticks hu 200, msToTicks_of_no_ticks hu 1000⟩, rfl, rfl, rfl, rfl⟩

/-! ### RESET -/

/-- POLL of an RTU framer that has had no SETUP (rules R37, R211). -/
theorem exec_rtuPoll_of_not_configured {s : State} (hf : s.fault = none) (hc : s.rtu.configured = false) :
    exec .rtuPoll s = .next ((s.answer .none).raise .notConfigured) :=
  next_command hf (if_neg (ne_true_of_eq_false hc))

/-- Settles O11: the registers are those of `RtuFramer.reset`, and the first check of each command is that of rule R37. -/
theorem rtuResetCommand : Obligations.RtuResetCommand := by
  refine ⟨fun s hf => next_command hf rfl, fun s i hf hc hi => ?_⟩
  obtain rfl | rfl | rfl | rfl | ⟨k, rfl⟩ | ⟨k, v, rfl⟩ | ⟨a, n, rfl⟩ := hi
  · exact exec_rtuPoll_of_not_configured hf hc
  · exact (beginSendCommands s hf).1 hc
  · exact (sendRefusals s hf).1 hc
  · exact (finishedCommands s hf).1 hc
  · exact (bufReadCommand .rtu k s hf).1 ⟨rfl, hc⟩
  · exact (bufWriteCommand .rtu k v s hf).1 ⟨rfl, hc⟩
  · exact (setFrameCommand .rtu a n s hf).1 ⟨rfl, hc⟩

/-- An event that is recorded under a condition changes the events only. -/
theorem State.ite_emit (p : Prop) [Decidable p] (e : Event) (s : State) :
    (if p then s.emit e else s) = { s with events := if p then s.events ++ [e] else s.events } := by
  split <;> rfl

/-- Settles O12: the registers are those of `AscFramer.reset`, and the cause is recorded where UPT is 0. -/
theorem asciiResetCommand : Obligations.AsciiResetCommand := fun _ hf => next_command hf (State.ite_emit ..)

/-! ### The master engine -/

/-- A master command where no fault stands and the block has a master engine. -/
theorem next_masterCommand {s t : State} {f : State → State} (hf : s.fault = none) (hm : s.cfg.master ≠ none)
    (h : f (s.answer .none) = t) : (.next (s.masterCommand f) : Host.Outcome State Fault Refusal) = .next t := by
  obtain ⟨u, hu⟩ := Option.ne_none_iff_exists'.1 hm
  exact congrArg _ ((State.masterCommand_of_ok f hf hu).trans h)

/-- Settles O13: the resets and the timeouts write their registers in every state of the engine, M_ACK_ERROR looks whether
it is in `processing_error`, and M_READ_STATUS returns its code. -/
theorem masterControlCommands : Obligations.MasterControlCommands := by
  intro s hf hm ticks
  refine ⟨next_masterCommand hf hm rfl, fun ms => next_masterCommand hf hm rfl, fun ms => next_masterCommand hf hm rfl,
    fun hst => next_masterCommand hf hm (if_pos hst), fun hst => next_masterCommand hf hm (if_neg hst),
    s.mst.st.code, next_masterCommand hf hm rfl, ?codes⟩
  case codes =>
    exact ⟨congrArg MstSt.code, congrArg MstSt.code, congrArg MstSt.code, congrArg MstSt.code, congrArg MstSt.code⟩

end Sys2Proof.Machine
end
